-- ==== Sys2Proof/Word.lean ====
section
/-! DEFINITION. The machine's words: bytes, halfwords and 32-bit Words (00_scope.md R10). -/

namespace Sys2Proof

/-- A byte, 8 bits (R10). -/
abbrev Byte := BitVec 8

/-- A halfword, 16 bits (R10): the unit of a DMA transfer. -/
abbrev Half := BitVec 16

/-- A Word, 32 bits (R10): registers and addresses. -/
abbrev Word := BitVec 32

end Sys2Proof
end

