-- ==== Sys2Proof/Config.lean ====
section
/-! DEFINITION. The parameters the source leaves open (00_scope.md R8) as plain data, their defaults, and the
free values: constants without a body, of which no proof can know anything. -/

namespace Sys2Proof

/-- `REP_BRANCH_ORDER` (R403). -/
inductive RepBranchOrder where
  | testThenDecrement
  | decrementThenTest
  deriving DecidableEq, Repr

/-- `DIV_ROW_ORDER` (R121): which of DVR, REM, DIV owns opcode rows 9, A and B. -/
inductive DivRowOrder where
  /-- the printed opcode map: 9 = DVR, A = REM, B = DIV -/
  | opcodeMap
  /-- the instruction definitions: 9 = REM, A = DIV, B = DVR -/
  | definitions
  deriving DecidableEq, Repr

/-- `STK_IMM_ORDER` (R113): which of FC and FD is stack mode and which immediate. -/
inductive StkImmOrder where
  /-- the mode table: FC = stack, FD = immediate -/
  | modeTable
  /-- the headings: FC = immediate, FD = stack -/
  | headings
  deriving DecidableEq, Repr

/-- `ROT_DIRECTION` (R283). -/
inductive RotDirection where
  /-- as printed: right if the count is positive, left if it is negative -/
  | positiveRight
  /-- the other reading -/
  | positiveLeft
  deriving DecidableEq, Repr

/-- What an output port is wired to (R457, R635 P8). -/
inductive OutWire where
  /-- an input port of another node, over a link of at most `LINK_DEPTH` halfwords -/
  | linked
  /-- nothing, and what it sends is discarded -/
  | discards
  /-- nothing, and there is never room for a halfword -/
  | blocked
  deriving DecidableEq, Repr

/-- The parameters of R8 a node is launched with. `PS_LOW_LAYOUT` is given as the bit position of each of the
sixteen low fields of PS, in the order C, V, Z, N, U, IX, UF, FZ, OF, IN, IIX, R11, R12, R13, R14, IV (R27);
`PORT_REG_LAYOUT` as the bit of each port, the host port last (R39). `wiring` and `inWired`, what each output and input port is wired to,
are this node's part of `PORT_WIRING` and `HOST_WIRING`. -/
structure Params where
  order : Nat
  memSize : Nat
  psLow : Vector (Fin 16) 16
  portBit : Vector (Fin 32) 11
  crRefr : Fin 17
  crType : Fin 23
  crCyc : Fin 23
  modelNumber : BitVec 8
  wrapReal : Nat
  wrapLong : Nat
  prefetchWindow : Nat
  bootEntry : Word
  repBranch : RepBranchOrder
  divRows : DivRowOrder
  stkImm : StkImmOrder
  rot : RotDirection
  ioBoard : Bool
  selfTestPassed : Bool
  linkDepth : Nat
  wiring : Vector OutWire 11
  inWired : Vector Bool 11
  deriving DecidableEq, Repr

/-- The defaults of R8. The wiring is that of a node of an order-6 array (R545): ports 32..37 and the host port 63
linked, ports 38..41 unconnected and without room (R635 P8); of the input ports 0..5 and the host port 31 are wired. -/
def Params.default : Params where
  order := 6
  memSize := 131072
  psLow := #v[0, 1, 2, 3, 4, 5, 6, 7, 8, 9, 10, 11, 12, 13, 14, 15]
  portBit := #v[0, 1, 2, 3, 4, 5, 6, 7, 8, 9, 31]
  crRefr := 0
  crType := 8
  crCyc := 10
  modelNumber := 0
  wrapReal := 127
  wrapLong := 1023
  prefetchWindow := 32
  bootEntry := 0x1000
  repBranch := .testThenDecrement
  divRows := .opcodeMap
  stkImm := .modeTable
  rot := .positiveRight
  ioBoard := false
  selfTestPassed := true
  linkDepth := 2
  wiring := #v[.linked, .linked, .linked, .linked, .linked, .linked, .blocked, .blocked, .blocked, .blocked, .linked]
  inWired := #v[true, true, true, true, true, true, false, false, false, false, true]

/-- The parameters are ones R8 allows: memory fits the address space and holds the vector table, no two low fields
of PS share a bit, no two ports share a bit, and REFR, TYPE and CYC do not overlap and lie below MODEL NUMBER. -/
def Params.wf (p : Params) : Bool :=
  p.memSize ≤ 2 ^ 32 && 2048 < p.memSize && p.order ≤ 10 &&
    decide p.psLow.toList.Nodup && decide p.portBit.toList.Nodup &&
    ((p.crRefr.val + 8 ≤ p.crType.val || p.crType.val + 2 ≤ p.crRefr.val) &&
      (p.crRefr.val + 8 ≤ p.crCyc.val || p.crCyc.val + 2 ≤ p.crRefr.val) &&
      (p.crType.val + 2 ≤ p.crCyc.val || p.crCyc.val + 2 ≤ p.crType.val))

/-- Free values (93_implementation_defined.md "any value"): the `i`-th one of width `w`. `State.free` counts the
ones a run has drawn, so every draw is a fresh one. Log 7. -/
opaque Config.freeValue : (w : Nat) → (i : Nat) → BitVec w

/-- `FR_LAYOUT` (R8, R33, N3): fields 0..10 are RU, RS, GR, F1, E1, I1, S1, F2, E2, I2, S2, and field `i` of the
Fault Register stands at bit `frLayout i`; the images of 11..31 are the reserved bits. Log 8. -/
opaque Config.frLayout : Equiv.Perm (Fin 32)

/-- The error line of an array board from the Error pins of its nodes, whose combination is not in the source (R585,
91_not_in_source.md N32). Log 35. -/
opaque Config.errorLine : List Bool → Bool

/-- The same for the local nodes of a System Control Board (R585), where one of them signals, which R622 of
70_reset_and_hazards.md does not let it do while its pin is grounded. Log 35. -/
opaque Config.localErrorLine : List Bool → Bool

/-- The memory bank, of four, that a halfword of the system RAM is in, as the syndrome register names it (R568); the source
does not say where the banks lie. Log 35. -/
opaque Config.ramBank : Nat → BitVec 2

end Sys2Proof
end

