-- ==== Sys2Proof/Syntax.lean ====
section
/-! DEFINITION. The syntax of the NCUBE node ISA: operand types, references and the 142 instructions
(30_encoding.md R110 to R120). -/

namespace Sys2Proof

/-- The size letter of an operand (R10). -/
inductive OpType where
  | b
  | h
  | w
  | r
  | l
  deriving DecidableEq, Repr

/-- `len(T)` in bytes (R10). -/
def OpType.len : OpType → Nat
  | .b => 1
  | .h => 2
  | .w => 4
  | .r => 4
  | .l => 8

/-- The width of an operand in bits. -/
def OpType.bits (t : OpType) : Nat := 8 * t.len

/-- Whether the type is a floating-point type (R300). -/
def OpType.isReal : OpType → Bool
  | .r => true
  | .l => true
  | _ => false

/-- What an instruction does with a reference, which fixes its legal modes and the length of an immediate
(R118, R119, R125). -/
inductive RefKind where
  /-- read as a value of the type: every mode is legal (R182) -/
  | value (t : OpType)
  /-- written, or read and written, as the type: literal and immediate are Operand Errors (R181) -/
  | dest (t : OpType)
  /-- the address form of JMP, Bcc, CALL and MOVA: an immediate is an Operand Error (R119) -/
  | addr
  /-- the count register of REP, REPZ and REPNZ: every mode but Register Direct is an Operand Error (R400) -/
  | count
  deriving DecidableEq, Repr

/-- `len(T)` of a reference: an address form counts as a Word (R180). -/
def RefKind.len : RefKind → Nat
  | .value t => t.len
  | .dest t => t.len
  | .addr => 4
  | .count => 4

/-- The length of an immediate, where the form has one (R113): an address form (R119), a destination (R181) and a count
register (R400) have none, since an immediate there is an Operand Error at its specifier. -/
def RefKind.immLen : RefKind → Option Nat
  | .value t => some t.len
  | .dest _ => none
  | .addr => none
  | .count => none

/-- A reference: the modes of the table of R113, one constructor each, with the offset or immediate that follows
the mode specifier byte. -/
inductive Ref where
  /-- 00..3F, Literal (R161) -/
  | lit (k : BitVec 6)
  /-- 4n, Register Indirect (R163) -/
  | ind (n : Fin 16)
  /-- 5n, Autoskip (R166) -/
  | autoSkip (n : Fin 16)
  /-- 6n, Autoincrement (R164) -/
  | autoInc (n : Fin 16)
  /-- 7n, Autoincrement Indirect (R165) -/
  | autoIncInd (n : Fin 16)
  /-- 8n, Byte Offset + Register (R168) -/
  | offB (n : Fin 16) (off : BitVec 8)
  /-- 9n, Halfword Offset + Register (R168) -/
  | offH (n : Fin 16) (off : BitVec 16)
  /-- An, Word Offset + Register (R168) -/
  | offW (n : Fin 16) (off : BitVec 32)
  /-- Bn, (Word Offset + Register) Indirect (R169) -/
  | offInd (n : Fin 16) (off : BitVec 32)
  /-- Cn, Register Direct (R160) -/
  | reg (n : Fin 16)
  /-- Dn, Autodecrement (R167) -/
  | autoDec (n : Fin 16)
  /-- F0, Byte Offset + PC (R171) -/
  | pcB (off : BitVec 8)
  /-- F1, Halfword Offset + PC (R171) -/
  | pcH (off : BitVec 16)
  /-- F2, Word Offset + PC (R171) -/
  | pcW (off : BitVec 32)
  /-- F3, (Word Offset + PC) Indirect (R172) -/
  | pcInd (off : BitVec 32)
  /-- F4, Byte Offset + SP (R173) -/
  | spB (off : BitVec 8)
  /-- F5, Halfword Offset + SP (R173) -/
  | spH (off : BitVec 16)
  /-- F6, Word Offset + SP (R173) -/
  | spW (off : BitVec 32)
  /-- F7, (Word Offset + SP) Indirect (R174) -/
  | spInd (off : BitVec 32)
  /-- F8, Direct, Byte address (R175) -/
  | dirB (a : BitVec 8)
  /-- F9, Direct, Halfword address (R175) -/
  | dirH (a : BitVec 16)
  /-- FA, Direct, Word address (R175) -/
  | dirW (a : BitVec 32)
  /-- FB, (Word) Indirect (R175) -/
  | dirInd (a : BitVec 32)
  /-- FC, Push/Pop (R176) -/
  | stk
  /-- FD, Immediate (R162): the `len(T)` bytes that follow, as a number of at most 64 bits -/
  | imm (v : BitVec 64)
  /-- a specifier that raises Operand Error where it is decoded (R123, R119): the byte as fetched -/
  | illegal (spec : BitVec 8)
  /-- a reference that the end of memory cuts off, with how many of its bytes are there; none of them where the decoder did
  not come to it, an earlier reference being illegal -/
  | missing (there : Fin 9)
  deriving DecidableEq, Repr

/-- The instructions of the opcode map (R120), in the order of spec/opcode_table.json. -/
inductive Instr where
  /-- MOVB, opcode 00 (R206) -/
  | movb (src des : Ref)
  /-- SFTB, opcode 01 (R277) -/
  | sftb (src des : Ref)
  /-- MOVH, opcode 02 (R207) -/
  | movh (src des : Ref)
  /-- SFTH, opcode 03 (R278) -/
  | sfth (src des : Ref)
  /-- MOVW, opcode 04 (R208) -/
  | movw (src des : Ref)
  /-- SFTW, opcode 05 (R279) -/
  | sftw (src des : Ref)
  /-- MOVR, opcode 08 (R320) -/
  | movr (src des : Ref)
  /-- CVBR, opcode 09 (R344) -/
  | cvbr (src des : Ref)
  /-- MOVL, opcode 0A (R321) -/
  | movl (src des : Ref)
  /-- NOP, opcode 0B (R410) -/
  | nop
  /-- BG, opcode 0F (R378) -/
  | bg (src : Ref)
  /-- NEGB, opcode 10 (R209) -/
  | negb (src des : Ref)
  /-- SFAB, opcode 11 (R280) -/
  | sfab (src des : Ref)
  /-- NEGH, opcode 12 (R210) -/
  | negh (src des : Ref)
  /-- SFAH, opcode 13 (R281) -/
  | sfah (src des : Ref)
  /-- NEGW, opcode 14 (R211) -/
  | negw (src des : Ref)
  /-- SFAW, opcode 15 (R282) -/
  | sfaw (src des : Ref)
  /-- NEGR, opcode 18 (R322) -/
  | negr (src des : Ref)
  /-- CVHR, opcode 19 (R345) -/
  | cvhr (src des : Ref)
  /-- NEGL, opcode 1A (R323) -/
  | negl (src des : Ref)
  /-- CLC, opcode 1B (R411) -/
  | clc
  /-- REP, opcode 1E (R400) -/
  | rep (src : Ref)
  /-- BLE, opcode 1F (R381) -/
  | ble (src : Ref)
  /-- SBRB, opcode 20 (R224) -/
  | sbrb (src des : Ref)
  /-- ROTB, opcode 21 (R283) -/
  | rotb (src des : Ref)
  /-- SBRH, opcode 22 (R225) -/
  | sbrh (src des : Ref)
  /-- ROTH, opcode 23 (R284) -/
  | roth (src des : Ref)
  /-- SBRW, opcode 24 (R226) -/
  | sbrw (src des : Ref)
  /-- ROTW, opcode 25 (R285) -/
  | rotw (src des : Ref)
  /-- SBRR, opcode 28 (R330) -/
  | sbrr (src des : Ref)
  /-- CVWR, opcode 29 (R346) -/
  | cvwr (src des : Ref)
  /-- SBRL, opcode 2A (R331) -/
  | sbrl (src des : Ref)
  /-- STC, opcode 2B (R412) -/
  | stc
  /-- REPZ, opcode 2E (R405) -/
  | repz (src : Ref)
  /-- BGU, opcode 2F (R382) -/
  | bgu (src : Ref)
  /-- CMPB, opcode 30 (R227) -/
  | cmpb (src des : Ref)
  /-- FFOB, opcode 31 (R286) -/
  | ffob (src des : Ref)
  /-- CMPH, opcode 32 (R228) -/
  | cmph (src des : Ref)
  /-- FFOH, opcode 33 (R287) -/
  | ffoh (src des : Ref)
  /-- CMPW, opcode 34 (R229) -/
  | cmpw (src des : Ref)
  /-- FFOW, opcode 35 (R288) -/
  | ffow (src des : Ref)
  /-- CMPR, opcode 38 (R334) -/
  | cmpr (src des : Ref)
  /-- CVLR, opcode 39 (R347) -/
  | cvlr (src des : Ref)
  /-- CMPL, opcode 3A (R335) -/
  | cmpl (src des : Ref)
  /-- CMC, opcode 3B (R413) -/
  | cmc
  /-- REPNZ, opcode 3E (R406) -/
  | repnz (src : Ref)
  /-- BLEU, opcode 3F (R385) -/
  | bleu (src : Ref)
  /-- ADDB, opcode 40 (R212) -/
  | addb (src des : Ref)
  /-- ANDB, opcode 41 (R262) -/
  | andb (src des : Ref)
  /-- ADDH, opcode 42 (R213) -/
  | addh (src des : Ref)
  /-- ANDH, opcode 43 (R263) -/
  | andh (src des : Ref)
  /-- ADDW, opcode 44 (R214) -/
  | addw (src des : Ref)
  /-- ANDW, opcode 45 (R264) -/
  | andw (src des : Ref)
  /-- ADDR, opcode 48 (R326) -/
  | addr (src des : Ref)
  /-- CVBL, opcode 49 (R348) -/
  | cvbl (src des : Ref)
  /-- ADDL, opcode 4A (R327) -/
  | addl (src des : Ref)
  /-- ERON, opcode 4B (R416) -/
  | eron
  /-- TRAP, opcode 4E (R419) -/
  | trap (src : Ref)
  /-- BGE, opcode 4F (R379) -/
  | bge (src : Ref)
  /-- ADCB, opcode 50 (R215) -/
  | adcb (src des : Ref)
  /-- ORB, opcode 51 (R265) -/
  | orb (src des : Ref)
  /-- ADCH, opcode 52 (R216) -/
  | adch (src des : Ref)
  /-- ORH, opcode 53 (R266) -/
  | orh (src des : Ref)
  /-- ADCW, opcode 54 (R217) -/
  | adcw (src des : Ref)
  /-- ORW, opcode 55 (R267) -/
  | orw (src des : Ref)
  /-- SQTR, opcode 58 (R342) -/
  | sqtr (src des : Ref)
  /-- CVHL, opcode 59 (R349) -/
  | cvhl (src des : Ref)
  /-- SQTL, opcode 5A (R343) -/
  | sqtl (src des : Ref)
  /-- EROF, opcode 5B (R417) -/
  | erof
  /-- BL, opcode 5F (R380) -/
  | bl (src : Ref)
  /-- SUBB, opcode 60 (R218) -/
  | subb (src des : Ref)
  /-- XORB, opcode 61 (R268) -/
  | xorb (src des : Ref)
  /-- SUBH, opcode 62 (R219) -/
  | subh (src des : Ref)
  /-- XORH, opcode 63 (R269) -/
  | xorh (src des : Ref)
  /-- SUBW, opcode 64 (R220) -/
  | subw (src des : Ref)
  /-- XORW, opcode 65 (R270) -/
  | xorw (src des : Ref)
  /-- SUBR, opcode 68 (R328) -/
  | subr (src des : Ref)
  /-- CVWL, opcode 69 (R350) -/
  | cvwl (src des : Ref)
  /-- SUBL, opcode 6A (R329) -/
  | subl (src des : Ref)
  /-- BKPT, opcode 6B (R418) -/
  | bkpt
  /-- BGEU, opcode 6F (R383) -/
  | bgeu (src : Ref)
  /-- SBBB, opcode 70 (R221) -/
  | sbbb (src des : Ref)
  /-- NOTB, opcode 71 (R271) -/
  | notb (src des : Ref)
  /-- SBBH, opcode 72 (R222) -/
  | sbbh (src des : Ref)
  /-- NOTH, opcode 73 (R272) -/
  | noth (src des : Ref)
  /-- SBBW, opcode 74 (R223) -/
  | sbbw (src des : Ref)
  /-- NOTW, opcode 75 (R273) -/
  | notw (src des : Ref)
  /-- SGNR, opcode 78 (R324) -/
  | sgnr (src des : Ref)
  /-- CVRL, opcode 79 (R351) -/
  | cvrl (src des : Ref)
  /-- SGNL, opcode 7A (R325) -/
  | sgnl (src des : Ref)
  /-- RSET, opcode 7B (R424) -/
  | rset
  /-- BLU, opcode 7F (R384) -/
  | blu (src : Ref)
  /-- MULB, opcode 80 (R230) -/
  | mulb (src des : Ref)
  /-- ADCD, opcode 81 (R242) -/
  | adcd (src des : Ref)
  /-- MULH, opcode 82 (R231) -/
  | mulh (src des : Ref)
  /-- MULW, opcode 84 (R232) -/
  | mulw (src des : Ref)
  /-- LDPR, opcode 85 (R426) -/
  | ldpr (src des : Ref)
  /-- MULR, opcode 88 (R332) -/
  | mulr (src des : Ref)
  /-- CVBW, opcode 89 (R244) -/
  | cvbw (src des : Ref)
  /-- MULL, opcode 8A (R333) -/
  | mull (src des : Ref)
  /-- EI, opcode 8B (R414) -/
  | ei
  /-- BNE, opcode 8F (R377) -/
  | bne (src : Ref)
  /-- DVRB, opcode 90 (R236) -/
  | dvrb (src des : Ref)
  /-- SBBD, opcode 91 (R243) -/
  | sbbd (src des : Ref)
  /-- DVRH, opcode 92 (R237) -/
  | dvrh (src des : Ref)
  /-- DVRW, opcode 94 (R238) -/
  | dvrw (src des : Ref)
  /-- STPR, opcode 95 (R427) -/
  | stpr (src des : Ref)
  /-- DVRR, opcode 98 (R338) -/
  | dvrr (src des : Ref)
  /-- CVHW, opcode 99 (R245) -/
  | cvhw (src des : Ref)
  /-- DVRL, opcode 9A (R339) -/
  | dvrl (src des : Ref)
  /-- DI, opcode 9B (R415) -/
  | di
  /-- BE, opcode 9F (R376) -/
  | be (src : Ref)
  /-- REMB, opcode A0 (R239) -/
  | remb (src des : Ref)
  /-- REMH, opcode A2 (R240) -/
  | remh (src des : Ref)
  /-- REMW, opcode A4 (R241) -/
  | remw (src des : Ref)
  /-- LCNT, opcode A5 (R444) -/
  | lcnt (src des : Ref)
  /-- REMR, opcode A8 (R340) -/
  | remr (src des : Ref)
  /-- CVWB, opcode A9 (R246) -/
  | cvwb (src des : Ref)
  /-- REML, opcode AA (R341) -/
  | reml (src des : Ref)
  /-- BNV, opcode AF (R375) -/
  | bnv (src : Ref)
  /-- DIVB, opcode B0 (R233) -/
  | divb (src des : Ref)
  /-- DIVH, opcode B2 (R234) -/
  | divh (src des : Ref)
  /-- DIVW, opcode B4 (R235) -/
  | divw (src des : Ref)
  /-- LPTR, opcode B5 (R443) -/
  | lptr (src des : Ref)
  /-- DIVR, opcode B8 (R336) -/
  | divr (src des : Ref)
  /-- CVWH, opcode B9 (R247) -/
  | cvwh (src des : Ref)
  /-- DIVL, opcode BA (R337) -/
  | divl (src des : Ref)
  /-- BV, opcode BF (R374) -/
  | bv (src : Ref)
  /-- BITB, opcode C0 (R274) -/
  | bitb (src des : Ref)
  /-- BITH, opcode C2 (R275) -/
  | bith (src des : Ref)
  /-- BITW, opcode C4 (R276) -/
  | bitw (src des : Ref)
  /-- BCNT, opcode C5 (R446) -/
  | bcnt (src des : Ref)
  /-- CVRW, opcode C9 (R352) -/
  | cvrw (src des : Ref)
  /-- RETI, opcode CB (R420) -/
  | reti
  /-- CALL, opcode CF (R386) -/
  | call (src : Ref)
  /-- BPTR, opcode D5 (R445) -/
  | bptr (src des : Ref)
  /-- CVLW, opcode D9 (R353) -/
  | cvlw (src des : Ref)
  /-- WAIT, opcode DB (R421) -/
  | wait
  /-- JMP, opcode DF (R373) -/
  | jmp (src : Ref)
  /-- MOVA, opcode E5 (R389) -/
  | mova (src des : Ref)
  /-- RET, opcode EB (R387) -/
  | ret
  /-- RETP, opcode EF (R388) -/
  | retp (src : Ref)
  deriving DecidableEq, Repr

/-- The operation of an instruction: its opcode byte in the opcode map (R120) and its references with what each is
for (R118), in the order in which they stand. -/
structure Parts where
  opcode : BitVec 8
  refs : List (RefKind × Ref)
  deriving DecidableEq, Repr

/-- The parts of every instruction, from R118 and R120. -/
def Instr.parts : Instr → Parts
  | .movb src des => ⟨0x00, [(.value .b, src), (.dest .b, des)]⟩
  | .sftb src des => ⟨0x01, [(.value .b, src), (.dest .b, des)]⟩
  | .movh src des => ⟨0x02, [(.value .h, src), (.dest .h, des)]⟩
  | .sfth src des => ⟨0x03, [(.value .b, src), (.dest .h, des)]⟩
  | .movw src des => ⟨0x04, [(.value .w, src), (.dest .w, des)]⟩
  | .sftw src des => ⟨0x05, [(.value .b, src), (.dest .w, des)]⟩
  | .movr src des => ⟨0x08, [(.value .r, src), (.dest .r, des)]⟩
  | .cvbr src des => ⟨0x09, [(.value .b, src), (.dest .r, des)]⟩
  | .movl src des => ⟨0x0A, [(.value .l, src), (.dest .l, des)]⟩
  | .nop => ⟨0x0B, []⟩
  | .bg src => ⟨0x0F, [(.addr, src)]⟩
  | .negb src des => ⟨0x10, [(.value .b, src), (.dest .b, des)]⟩
  | .sfab src des => ⟨0x11, [(.value .b, src), (.dest .b, des)]⟩
  | .negh src des => ⟨0x12, [(.value .h, src), (.dest .h, des)]⟩
  | .sfah src des => ⟨0x13, [(.value .b, src), (.dest .h, des)]⟩
  | .negw src des => ⟨0x14, [(.value .w, src), (.dest .w, des)]⟩
  | .sfaw src des => ⟨0x15, [(.value .b, src), (.dest .w, des)]⟩
  | .negr src des => ⟨0x18, [(.value .r, src), (.dest .r, des)]⟩
  | .cvhr src des => ⟨0x19, [(.value .h, src), (.dest .r, des)]⟩
  | .negl src des => ⟨0x1A, [(.value .l, src), (.dest .l, des)]⟩
  | .clc => ⟨0x1B, []⟩
  | .rep src => ⟨0x1E, [(.count, src)]⟩
  | .ble src => ⟨0x1F, [(.addr, src)]⟩
  | .sbrb src des => ⟨0x20, [(.value .b, src), (.dest .b, des)]⟩
  | .rotb src des => ⟨0x21, [(.value .b, src), (.dest .b, des)]⟩
  | .sbrh src des => ⟨0x22, [(.value .h, src), (.dest .h, des)]⟩
  | .roth src des => ⟨0x23, [(.value .b, src), (.dest .h, des)]⟩
  | .sbrw src des => ⟨0x24, [(.value .w, src), (.dest .w, des)]⟩
  | .rotw src des => ⟨0x25, [(.value .b, src), (.dest .w, des)]⟩
  | .sbrr src des => ⟨0x28, [(.value .r, src), (.dest .r, des)]⟩
  | .cvwr src des => ⟨0x29, [(.value .w, src), (.dest .r, des)]⟩
  | .sbrl src des => ⟨0x2A, [(.value .l, src), (.dest .l, des)]⟩
  | .stc => ⟨0x2B, []⟩
  | .repz src => ⟨0x2E, [(.count, src)]⟩
  | .bgu src => ⟨0x2F, [(.addr, src)]⟩
  | .cmpb src des => ⟨0x30, [(.value .b, src), (.value .b, des)]⟩
  | .ffob src des => ⟨0x31, [(.value .b, src), (.dest .b, des)]⟩
  | .cmph src des => ⟨0x32, [(.value .h, src), (.value .h, des)]⟩
  | .ffoh src des => ⟨0x33, [(.value .h, src), (.dest .b, des)]⟩
  | .cmpw src des => ⟨0x34, [(.value .w, src), (.value .w, des)]⟩
  | .ffow src des => ⟨0x35, [(.value .w, src), (.dest .b, des)]⟩
  | .cmpr src des => ⟨0x38, [(.value .r, src), (.value .r, des)]⟩
  | .cvlr src des => ⟨0x39, [(.value .l, src), (.dest .r, des)]⟩
  | .cmpl src des => ⟨0x3A, [(.value .l, src), (.value .l, des)]⟩
  | .cmc => ⟨0x3B, []⟩
  | .repnz src => ⟨0x3E, [(.count, src)]⟩
  | .bleu src => ⟨0x3F, [(.addr, src)]⟩
  | .addb src des => ⟨0x40, [(.value .b, src), (.dest .b, des)]⟩
  | .andb src des => ⟨0x41, [(.value .b, src), (.dest .b, des)]⟩
  | .addh src des => ⟨0x42, [(.value .h, src), (.dest .h, des)]⟩
  | .andh src des => ⟨0x43, [(.value .h, src), (.dest .h, des)]⟩
  | .addw src des => ⟨0x44, [(.value .w, src), (.dest .w, des)]⟩
  | .andw src des => ⟨0x45, [(.value .w, src), (.dest .w, des)]⟩
  | .addr src des => ⟨0x48, [(.value .r, src), (.dest .r, des)]⟩
  | .cvbl src des => ⟨0x49, [(.value .b, src), (.dest .l, des)]⟩
  | .addl src des => ⟨0x4A, [(.value .l, src), (.dest .l, des)]⟩
  | .eron => ⟨0x4B, []⟩
  | .trap src => ⟨0x4E, [(.value .b, src)]⟩
  | .bge src => ⟨0x4F, [(.addr, src)]⟩
  | .adcb src des => ⟨0x50, [(.value .b, src), (.dest .b, des)]⟩
  | .orb src des => ⟨0x51, [(.value .b, src), (.dest .b, des)]⟩
  | .adch src des => ⟨0x52, [(.value .h, src), (.dest .h, des)]⟩
  | .orh src des => ⟨0x53, [(.value .h, src), (.dest .h, des)]⟩
  | .adcw src des => ⟨0x54, [(.value .w, src), (.dest .w, des)]⟩
  | .orw src des => ⟨0x55, [(.value .w, src), (.dest .w, des)]⟩
  | .sqtr src des => ⟨0x58, [(.value .r, src), (.dest .r, des)]⟩
  | .cvhl src des => ⟨0x59, [(.value .h, src), (.dest .l, des)]⟩
  | .sqtl src des => ⟨0x5A, [(.value .l, src), (.dest .l, des)]⟩
  | .erof => ⟨0x5B, []⟩
  | .bl src => ⟨0x5F, [(.addr, src)]⟩
  | .subb src des => ⟨0x60, [(.value .b, src), (.dest .b, des)]⟩
  | .xorb src des => ⟨0x61, [(.value .b, src), (.dest .b, des)]⟩
  | .subh src des => ⟨0x62, [(.value .h, src), (.dest .h, des)]⟩
  | .xorh src des => ⟨0x63, [(.value .h, src), (.dest .h, des)]⟩
  | .subw src des => ⟨0x64, [(.value .w, src), (.dest .w, des)]⟩
  | .xorw src des => ⟨0x65, [(.value .w, src), (.dest .w, des)]⟩
  | .subr src des => ⟨0x68, [(.value .r, src), (.dest .r, des)]⟩
  | .cvwl src des => ⟨0x69, [(.value .w, src), (.dest .l, des)]⟩
  | .subl src des => ⟨0x6A, [(.value .l, src), (.dest .l, des)]⟩
  | .bkpt => ⟨0x6B, []⟩
  | .bgeu src => ⟨0x6F, [(.addr, src)]⟩
  | .sbbb src des => ⟨0x70, [(.value .b, src), (.dest .b, des)]⟩
  | .notb src des => ⟨0x71, [(.value .b, src), (.dest .b, des)]⟩
  | .sbbh src des => ⟨0x72, [(.value .h, src), (.dest .h, des)]⟩
  | .noth src des => ⟨0x73, [(.value .h, src), (.dest .h, des)]⟩
  | .sbbw src des => ⟨0x74, [(.value .w, src), (.dest .w, des)]⟩
  | .notw src des => ⟨0x75, [(.value .w, src), (.dest .w, des)]⟩
  | .sgnr src des => ⟨0x78, [(.value .r, src), (.dest .r, des)]⟩
  | .cvrl src des => ⟨0x79, [(.value .r, src), (.dest .l, des)]⟩
  | .sgnl src des => ⟨0x7A, [(.value .l, src), (.dest .l, des)]⟩
  | .rset => ⟨0x7B, []⟩
  | .blu src => ⟨0x7F, [(.addr, src)]⟩
  | .mulb src des => ⟨0x80, [(.value .b, src), (.dest .b, des)]⟩
  | .adcd src des => ⟨0x81, [(.value .b, src), (.dest .b, des)]⟩
  | .mulh src des => ⟨0x82, [(.value .h, src), (.dest .h, des)]⟩
  | .mulw src des => ⟨0x84, [(.value .w, src), (.dest .w, des)]⟩
  | .ldpr src des => ⟨0x85, [(.value .w, src), (.value .b, des)]⟩
  | .mulr src des => ⟨0x88, [(.value .r, src), (.dest .r, des)]⟩
  | .cvbw src des => ⟨0x89, [(.value .b, src), (.dest .w, des)]⟩
  | .mull src des => ⟨0x8A, [(.value .l, src), (.dest .l, des)]⟩
  | .ei => ⟨0x8B, []⟩
  | .bne src => ⟨0x8F, [(.addr, src)]⟩
  | .dvrb src des => ⟨0x90, [(.value .b, src), (.dest .b, des)]⟩
  | .sbbd src des => ⟨0x91, [(.value .b, src), (.dest .b, des)]⟩
  | .dvrh src des => ⟨0x92, [(.value .h, src), (.dest .h, des)]⟩
  | .dvrw src des => ⟨0x94, [(.value .w, src), (.dest .w, des)]⟩
  | .stpr src des => ⟨0x95, [(.value .b, src), (.dest .w, des)]⟩
  | .dvrr src des => ⟨0x98, [(.value .r, src), (.dest .r, des)]⟩
  | .cvhw src des => ⟨0x99, [(.value .h, src), (.dest .w, des)]⟩
  | .dvrl src des => ⟨0x9A, [(.value .l, src), (.dest .l, des)]⟩
  | .di => ⟨0x9B, []⟩
  | .be src => ⟨0x9F, [(.addr, src)]⟩
  | .remb src des => ⟨0xA0, [(.value .b, src), (.dest .b, des)]⟩
  | .remh src des => ⟨0xA2, [(.value .h, src), (.dest .h, des)]⟩
  | .remw src des => ⟨0xA4, [(.value .w, src), (.dest .w, des)]⟩
  | .lcnt src des => ⟨0xA5, [(.value .w, src), (.value .b, des)]⟩
  | .remr src des => ⟨0xA8, [(.value .r, src), (.dest .r, des)]⟩
  | .cvwb src des => ⟨0xA9, [(.value .w, src), (.dest .b, des)]⟩
  | .reml src des => ⟨0xAA, [(.value .l, src), (.dest .l, des)]⟩
  | .bnv src => ⟨0xAF, [(.addr, src)]⟩
  | .divb src des => ⟨0xB0, [(.value .b, src), (.dest .b, des)]⟩
  | .divh src des => ⟨0xB2, [(.value .h, src), (.dest .h, des)]⟩
  | .divw src des => ⟨0xB4, [(.value .w, src), (.dest .w, des)]⟩
  | .lptr src des => ⟨0xB5, [(.value .w, src), (.value .w, des)]⟩
  | .divr src des => ⟨0xB8, [(.value .r, src), (.dest .r, des)]⟩
  | .cvwh src des => ⟨0xB9, [(.value .w, src), (.dest .h, des)]⟩
  | .divl src des => ⟨0xBA, [(.value .l, src), (.dest .l, des)]⟩
  | .bv src => ⟨0xBF, [(.addr, src)]⟩
  | .bitb src des => ⟨0xC0, [(.value .b, src), (.value .b, des)]⟩
  | .bith src des => ⟨0xC2, [(.value .h, src), (.value .h, des)]⟩
  | .bitw src des => ⟨0xC4, [(.value .w, src), (.value .w, des)]⟩
  | .bcnt src des => ⟨0xC5, [(.value .w, src), (.value .w, des)]⟩
  | .cvrw src des => ⟨0xC9, [(.value .r, src), (.dest .w, des)]⟩
  | .reti => ⟨0xCB, []⟩
  | .call src => ⟨0xCF, [(.addr, src)]⟩
  | .bptr src des => ⟨0xD5, [(.value .w, src), (.value .w, des)]⟩
  | .cvlw src des => ⟨0xD9, [(.value .l, src), (.dest .w, des)]⟩
  | .wait => ⟨0xDB, []⟩
  | .jmp src => ⟨0xDF, [(.addr, src)]⟩
  | .mova src des => ⟨0xE5, [(.addr, src), (.dest .w, des)]⟩
  | .ret => ⟨0xEB, []⟩
  | .retp src => ⟨0xEF, [(.value .w, src)]⟩

/-- The bytes after the mode specifier of a reference (R113). -/
def Ref.extra (k : RefKind) : Ref → Nat
  | .offB _ _ => 1
  | .offH _ _ => 2
  | .offW _ _ => 4
  | .offInd _ _ => 4
  | .pcB _ => 1
  | .pcH _ => 2
  | .pcW _ => 4
  | .pcInd _ => 4
  | .spB _ => 1
  | .spH _ => 2
  | .spW _ => 4
  | .spInd _ => 4
  | .dirB _ => 1
  | .dirH _ => 2
  | .dirW _ => 4
  | .dirInd _ => 4
  | .imm _ => k.immLen.getD 0
  | _ => 0

/-- The length of a reference in bytes: the mode specifier and what follows it (R112); of one that is cut off, the bytes that
are there. -/
def Ref.length (k : RefKind) : Ref → Nat
  | .missing n => n.val
  | r => 1 + r.extra k

/-- The length of an instruction in bytes (R115). -/
def Instr.length (i : Instr) : Nat :=
  1 + (i.parts.refs.map (fun p => p.2.length p.1)).sum

end Sys2Proof
end

