-- ==== Sys2Proof/WellFormed.lean ====
section
/-! DEFINITION. Which instructions are encodable (every field fits its bytes) and which are well formed (encodable,
and every reference has a form the instruction allows: 30_encoding.md R125). -/

namespace Sys2Proof

/-- The reference stands for bytes that the decoder reads as it: it was decoded, its specifier is not one that ends the
reading of the instruction with an Operand Error (R123, R119, R181, R400, R499), and an immediate fits the operand's
length (R113). -/
def Ref.encodable (k : RefKind) (r : Ref) : Bool :=
  match k, r with
  | _, .illegal _ => false
  | _, .missing _ => false
  | .count, .reg _ => true
  | .count, _ => false
  | k, .imm v =>
    match k.immLen with
    | some n => v.toNat < 2 ^ (8 * n)
    | none => false
  | _, _ => true

/-- The reference has a form the instruction allows, so that its specifier is no Operand Error where it is decoded: no
reserved specifier (R123), no literal or immediate destination (R181), no immediate address (R119), Register Direct
alone for a repeat (R400). -/
def Ref.allowed (k : RefKind) (r : Ref) : Bool :=
  match k, r with
  | _, .illegal _ => false
  | .count, .reg _ => true
  | .count, _ => false
  | .dest _, .lit _ => false
  | .dest _, .imm _ => false
  | .addr, .imm _ => false
  | _, _ => true

/-- The encoder writes the instruction so that the decoder reads it back. -/
def Instr.encodable (i : Instr) : Bool :=
  i.parts.refs.all (fun p => p.2.encodable p.1)

/-- The instruction is one the encoding rules admit without an Operand Error (R125). -/
def Instr.wellFormed (i : Instr) : Bool :=
  i.parts.refs.all (fun p => p.2.encodable p.1 && p.2.allowed p.1)

end Sys2Proof
end

