-- ==== Sys2Proof/Decode.lean ====
section
/-! DEFINITION. The decoder, total on any list of bytes and refusing by name, and the encoder, both from the opcode
map of R120 and the mode table of R113 (30_encoding.md). -/

namespace Sys2Proof

/-! ## Bytes and fields -/

/-- The `n` low bytes of a number, the least significant first (R81, R114). -/
def bytesLE : Nat → Nat → List Byte
  | 0, _ => []
  | n + 1, v => BitVec.ofNat 8 v :: bytesLE n (v / 256)

/-- The number that the first `n` bytes hold, little-endian, and the bytes after them; none where they run out. -/
def takeLE : Nat → List Byte → Option (Nat × List Byte)
  | 0, bs => some (0, bs)
  | _ + 1, [] => none
  | n + 1, b :: bs =>
    match takeLE n bs with
    | some (v, rest) => some (b.toNat + 256 * v, rest)
    | none => none

/-- The REG field of a mode specifier byte, bits 3:0 (R112). -/
def regField (b : Byte) : Fin 16 := ⟨b.toNat % 16, Nat.mod_lt _ (by decide)⟩

/-- A mode specifier byte from its MD and REG fields (R112). -/
def specByte (md reg : Nat) : Byte := BitVec.ofNat 8 (16 * md + reg)

/-! ## The two encoding parameters -/

/-- The columns of the opcode map in which DVR, REM and DIV stand (R120, R121). -/
def isDivColumn (b : Byte) : Bool :=
  let tp := b.toNat % 16
  tp == 0 || tp == 2 || tp == 4 || tp == 8 || tp == 10

/-- Rows 9, A and B of the DVR, REM and DIV columns renamed, every other opcode kept. -/
def renameRow (to9 toA toB : Nat) (b : Byte) : Byte :=
  let tp := b.toNat % 16
  if isDivColumn b then
    match b.toNat / 16 with
    | 9 => BitVec.ofNat 8 (16 * to9 + tp)
    | 10 => BitVec.ofNat 8 (16 * toA + tp)
    | 11 => BitVec.ofNat 8 (16 * toB + tp)
    | _ => b
  else b

/-- The cell of the printed opcode map that an opcode byte in memory means, under `DIV_ROW_ORDER` (R121): in the
order of the definitions 9 is REM, A is DIV and B is DVR. -/
def mapOpcode (cfg : Params) (b : Byte) : Byte :=
  match cfg.divRows with
  | .opcodeMap => b
  | .definitions => renameRow 10 11 9 b

/-- The opcode byte in memory of a cell of the printed opcode map: the inverse of `mapOpcode`. -/
def memOpcode (cfg : Params) (b : Byte) : Byte :=
  match cfg.divRows with
  | .opcodeMap => b
  | .definitions => renameRow 11 9 10 b

/-- The mode specifier as the mode table numbers it, under `STK_IMM_ORDER` (R113): the headings exchange FC and FD.
The exchange is its own inverse. -/
def tableSpec (cfg : Params) (b : Byte) : Byte :=
  match cfg.stkImm with
  | .modeTable => b
  | .headings => if b = 0xFC then 0xFD else if b = 0xFD then 0xFC else b

/-! ## References -/

/-- A reference whose `n` offset bytes, at most eight, follow the specifier; where they run out it is cut off after the
specifier and those that are there. -/
def refWith (n : Nat) (mk : Nat → Ref) (rest : List Byte) : Ref × List Byte :=
  match takeLE n rest with
  | some (v, rest) => (mk v, rest)
  | none => (.missing (Fin.ofNat 9 (1 + rest.length)), [])

/-- The sub-modes of MD = F (R113), by the low nibble of the specifier; `b` is the byte as fetched. -/
def decodeSpecial (k : RefKind) (b : Byte) (sub : Nat) (rest : List Byte) : Ref × List Byte :=
  match sub with
  | 0 => refWith 1 (fun v => .pcB (BitVec.ofNat 8 v)) rest
  | 1 => refWith 2 (fun v => .pcH (BitVec.ofNat 16 v)) rest
  | 2 => refWith 4 (fun v => .pcW (BitVec.ofNat 32 v)) rest
  | 3 => refWith 4 (fun v => .pcInd (BitVec.ofNat 32 v)) rest
  | 4 => refWith 1 (fun v => .spB (BitVec.ofNat 8 v)) rest
  | 5 => refWith 2 (fun v => .spH (BitVec.ofNat 16 v)) rest
  | 6 => refWith 4 (fun v => .spW (BitVec.ofNat 32 v)) rest
  | 7 => refWith 4 (fun v => .spInd (BitVec.ofNat 32 v)) rest
  | 8 => refWith 1 (fun v => .dirB (BitVec.ofNat 8 v)) rest
  | 9 => refWith 2 (fun v => .dirH (BitVec.ofNat 16 v)) rest
  | 10 => refWith 4 (fun v => .dirW (BitVec.ofNat 32 v)) rest
  | 11 => refWith 4 (fun v => .dirInd (BitVec.ofNat 32 v)) rest
  | 12 => (.stk, rest)
  | 13 =>
    match k.immLen with
    | some n => refWith n (fun v => .imm (BitVec.ofNat 64 v)) rest
    | none => (.illegal b, rest)
  | _ => (.illegal b, rest)

/-- A reference by its mode specifier byte `s` as the mode table numbers it, fetched as `b`, and the bytes after it. -/
def decodeMode (k : RefKind) (b s : Byte) (rest : List Byte) : Ref × List Byte :=
  match s.toNat / 16 with
  | 0 => (.lit (s.setWidth 6), rest)
  | 1 => (.lit (s.setWidth 6), rest)
  | 2 => (.lit (s.setWidth 6), rest)
  | 3 => (.lit (s.setWidth 6), rest)
  | 4 => (.ind (regField s), rest)
  | 5 => (.autoSkip (regField s), rest)
  | 6 => (.autoInc (regField s), rest)
  | 7 => (.autoIncInd (regField s), rest)
  | 8 => refWith 1 (fun v => .offB (regField s) (BitVec.ofNat 8 v)) rest
  | 9 => refWith 2 (fun v => .offH (regField s) (BitVec.ofNat 16 v)) rest
  | 10 => refWith 4 (fun v => .offW (regField s) (BitVec.ofNat 32 v)) rest
  | 11 => refWith 4 (fun v => .offInd (regField s) (BitVec.ofNat 32 v)) rest
  | 12 => (.reg (regField s), rest)
  | 13 => (.autoDec (regField s), rest)
  | 15 => decodeSpecial k b (s.toNat % 16) rest
  | _ => (.illegal b, rest)

/-- One reference (R112, R113): the mode specifier byte and what follows it. The instruction ends at a specifier that
is an Operand Error (R499), no byte after it being read: the reserved specifiers E0..EF, FE and FF (R123), FD as an
address or a destination (R119, R181), and any mode but Register Direct as the count register of a repeat (R400) are
illegal references that name the byte. -/
def decodeRef (cfg : Params) (k : RefKind) : List Byte → Ref × List Byte
  | [] => (.missing 0, [])
  | b :: rest =>
    let s := tableSpec cfg b
    if k = .count ∧ s.toNat / 16 ≠ 12 then (.illegal b, rest) else decodeMode k b s rest

/-- Decoding goes on to the next reference only where this one is a reference with an end (R123). -/
def Ref.decoded : Ref → Bool
  | .illegal _ => false
  | .missing _ => false
  | _ => true

/-! ## Instructions -/

/-- A cell of the opcode map: how many references, what each is for, and the instruction they make (R110, R118). -/
inductive Shape where
  | zero (i : Instr)
  | one (k : RefKind) (mk : Ref → Instr)
  | two (k₁ k₂ : RefKind) (mk : Ref → Ref → Instr)


/-- Column 0 of the opcode map (R120). -/
def column0 : List (Byte × Shape) := [
  (0x00, .two (.value .b) (.dest .b) .movb),
  (0x10, .two (.value .b) (.dest .b) .negb),
  (0x20, .two (.value .b) (.dest .b) .sbrb),
  (0x30, .two (.value .b) (.value .b) .cmpb),
  (0x40, .two (.value .b) (.dest .b) .addb),
  (0x50, .two (.value .b) (.dest .b) .adcb),
  (0x60, .two (.value .b) (.dest .b) .subb),
  (0x70, .two (.value .b) (.dest .b) .sbbb),
  (0x80, .two (.value .b) (.dest .b) .mulb),
  (0x90, .two (.value .b) (.dest .b) .dvrb),
  (0xA0, .two (.value .b) (.dest .b) .remb),
  (0xB0, .two (.value .b) (.dest .b) .divb),
  (0xC0, .two (.value .b) (.value .b) .bitb)]

/-- Column 1 of the opcode map (R120). -/
def column1 : List (Byte × Shape) := [
  (0x01, .two (.value .b) (.dest .b) .sftb),
  (0x11, .two (.value .b) (.dest .b) .sfab),
  (0x21, .two (.value .b) (.dest .b) .rotb),
  (0x31, .two (.value .b) (.dest .b) .ffob),
  (0x41, .two (.value .b) (.dest .b) .andb),
  (0x51, .two (.value .b) (.dest .b) .orb),
  (0x61, .two (.value .b) (.dest .b) .xorb),
  (0x71, .two (.value .b) (.dest .b) .notb),
  (0x81, .two (.value .b) (.dest .b) .adcd),
  (0x91, .two (.value .b) (.dest .b) .sbbd)]

/-- Column 2 of the opcode map (R120). -/
def column2 : List (Byte × Shape) := [
  (0x02, .two (.value .h) (.dest .h) .movh),
  (0x12, .two (.value .h) (.dest .h) .negh),
  (0x22, .two (.value .h) (.dest .h) .sbrh),
  (0x32, .two (.value .h) (.value .h) .cmph),
  (0x42, .two (.value .h) (.dest .h) .addh),
  (0x52, .two (.value .h) (.dest .h) .adch),
  (0x62, .two (.value .h) (.dest .h) .subh),
  (0x72, .two (.value .h) (.dest .h) .sbbh),
  (0x82, .two (.value .h) (.dest .h) .mulh),
  (0x92, .two (.value .h) (.dest .h) .dvrh),
  (0xA2, .two (.value .h) (.dest .h) .remh),
  (0xB2, .two (.value .h) (.dest .h) .divh),
  (0xC2, .two (.value .h) (.value .h) .bith)]

/-- Column 3 of the opcode map (R120). -/
def column3 : List (Byte × Shape) := [
  (0x03, .two (.value .b) (.dest .h) .sfth),
  (0x13, .two (.value .b) (.dest .h) .sfah),
  (0x23, .two (.value .b) (.dest .h) .roth),
  (0x33, .two (.value .h) (.dest .b) .ffoh),
  (0x43, .two (.value .h) (.dest .h) .andh),
  (0x53, .two (.value .h) (.dest .h) .orh),
  (0x63, .two (.value .h) (.dest .h) .xorh),
  (0x73, .two (.value .h) (.dest .h) .noth)]

/-- Column 4 of the opcode map (R120). -/
def column4 : List (Byte × Shape) := [
  (0x04, .two (.value .w) (.dest .w) .movw),
  (0x14, .two (.value .w) (.dest .w) .negw),
  (0x24, .two (.value .w) (.dest .w) .sbrw),
  (0x34, .two (.value .w) (.value .w) .cmpw),
  (0x44, .two (.value .w) (.dest .w) .addw),
  (0x54, .two (.value .w) (.dest .w) .adcw),
  (0x64, .two (.value .w) (.dest .w) .subw),
  (0x74, .two (.value .w) (.dest .w) .sbbw),
  (0x84, .two (.value .w) (.dest .w) .mulw),
  (0x94, .two (.value .w) (.dest .w) .dvrw),
  (0xA4, .two (.value .w) (.dest .w) .remw),
  (0xB4, .two (.value .w) (.dest .w) .divw),
  (0xC4, .two (.value .w) (.value .w) .bitw)]

/-- Column 5 of the opcode map (R120). -/
def column5 : List (Byte × Shape) := [
  (0x05, .two (.value .b) (.dest .w) .sftw),
  (0x15, .two (.value .b) (.dest .w) .sfaw),
  (0x25, .two (.value .b) (.dest .w) .rotw),
  (0x35, .two (.value .w) (.dest .b) .ffow),
  (0x45, .two (.value .w) (.dest .w) .andw),
  (0x55, .two (.value .w) (.dest .w) .orw),
  (0x65, .two (.value .w) (.dest .w) .xorw),
  (0x75, .two (.value .w) (.dest .w) .notw),
  (0x85, .two (.value .w) (.value .b) .ldpr),
  (0x95, .two (.value .b) (.dest .w) .stpr),
  (0xA5, .two (.value .w) (.value .b) .lcnt),
  (0xB5, .two (.value .w) (.value .w) .lptr),
  (0xC5, .two (.value .w) (.value .w) .bcnt),
  (0xD5, .two (.value .w) (.value .w) .bptr),
  (0xE5, .two .addr (.dest .w) .mova)]

/-- Column 8 of the opcode map (R120). -/
def column8 : List (Byte × Shape) := [
  (0x08, .two (.value .r) (.dest .r) .movr),
  (0x18, .two (.value .r) (.dest .r) .negr),
  (0x28, .two (.value .r) (.dest .r) .sbrr),
  (0x38, .two (.value .r) (.value .r) .cmpr),
  (0x48, .two (.value .r) (.dest .r) .addr),
  (0x58, .two (.value .r) (.dest .r) .sqtr),
  (0x68, .two (.value .r) (.dest .r) .subr),
  (0x78, .two (.value .r) (.dest .r) .sgnr),
  (0x88, .two (.value .r) (.dest .r) .mulr),
  (0x98, .two (.value .r) (.dest .r) .dvrr),
  (0xA8, .two (.value .r) (.dest .r) .remr),
  (0xB8, .two (.value .r) (.dest .r) .divr)]

/-- Column 9 of the opcode map (R120). -/
def column9 : List (Byte × Shape) := [
  (0x09, .two (.value .b) (.dest .r) .cvbr),
  (0x19, .two (.value .h) (.dest .r) .cvhr),
  (0x29, .two (.value .w) (.dest .r) .cvwr),
  (0x39, .two (.value .l) (.dest .r) .cvlr),
  (0x49, .two (.value .b) (.dest .l) .cvbl),
  (0x59, .two (.value .h) (.dest .l) .cvhl),
  (0x69, .two (.value .w) (.dest .l) .cvwl),
  (0x79, .two (.value .r) (.dest .l) .cvrl),
  (0x89, .two (.value .b) (.dest .w) .cvbw),
  (0x99, .two (.value .h) (.dest .w) .cvhw),
  (0xA9, .two (.value .w) (.dest .b) .cvwb),
  (0xB9, .two (.value .w) (.dest .h) .cvwh),
  (0xC9, .two (.value .r) (.dest .w) .cvrw),
  (0xD9, .two (.value .l) (.dest .w) .cvlw)]

/-- Column A of the opcode map (R120). -/
def columnA : List (Byte × Shape) := [
  (0x0A, .two (.value .l) (.dest .l) .movl),
  (0x1A, .two (.value .l) (.dest .l) .negl),
  (0x2A, .two (.value .l) (.dest .l) .sbrl),
  (0x3A, .two (.value .l) (.value .l) .cmpl),
  (0x4A, .two (.value .l) (.dest .l) .addl),
  (0x5A, .two (.value .l) (.dest .l) .sqtl),
  (0x6A, .two (.value .l) (.dest .l) .subl),
  (0x7A, .two (.value .l) (.dest .l) .sgnl),
  (0x8A, .two (.value .l) (.dest .l) .mull),
  (0x9A, .two (.value .l) (.dest .l) .dvrl),
  (0xAA, .two (.value .l) (.dest .l) .reml),
  (0xBA, .two (.value .l) (.dest .l) .divl)]

/-- Column B of the opcode map (R120). -/
def columnB : List (Byte × Shape) := [
  (0x0B, .zero .nop),
  (0x1B, .zero .clc),
  (0x2B, .zero .stc),
  (0x3B, .zero .cmc),
  (0x4B, .zero .eron),
  (0x5B, .zero .erof),
  (0x6B, .zero .bkpt),
  (0x7B, .zero .rset),
  (0x8B, .zero .ei),
  (0x9B, .zero .di),
  (0xCB, .zero .reti),
  (0xDB, .zero .wait),
  (0xEB, .zero .ret)]

/-- Column E of the opcode map (R120). -/
def columnE : List (Byte × Shape) := [
  (0x1E, .one .count .rep),
  (0x2E, .one .count .repz),
  (0x3E, .one .count .repnz),
  (0x4E, .one (.value .b) .trap)]

/-- Column F of the opcode map (R120). -/
def columnF : List (Byte × Shape) := [
  (0x0F, .one .addr .bg),
  (0x1F, .one .addr .ble),
  (0x2F, .one .addr .bgu),
  (0x3F, .one .addr .bleu),
  (0x4F, .one .addr .bge),
  (0x5F, .one .addr .bl),
  (0x6F, .one .addr .bgeu),
  (0x7F, .one .addr .blu),
  (0x8F, .one .addr .bne),
  (0x9F, .one .addr .be),
  (0xAF, .one .addr .bnv),
  (0xBF, .one .addr .bv),
  (0xCF, .one .addr .call),
  (0xDF, .one .addr .jmp),
  (0xEF, .one (.value .w) .retp)]

/-- The named cells of the opcode map (R120): 142 of the 256 opcode bytes. -/
def opcodeMap : List (Byte × Shape) :=
  column0 ++ column1 ++ column2 ++ column3 ++ column4 ++ column5 ++ column8 ++ column9 ++ columnA ++ columnB ++ columnE ++ columnF

/-- The cell of an opcode; none for the 114 reserved ones (R122, R124). -/
def lookupOpcode (b : Byte) : List (Byte × Shape) → Option Shape
  | [] => none
  | (k, s) :: rest => if k = b then some s else lookupOpcode b rest

/-- Why bytes are no instruction. -/
inductive DecodeError where
  /-- there is no opcode byte -/
  | empty
  /-- the opcode byte is one of the 114 reserved ones, which raise Unimplemented Opcode (R122) -/
  | reservedOpcode (b : Byte)
  deriving DecidableEq, Repr

/-- The instruction at the head of a list of bytes and the bytes after it (R115). A reference that is illegal or not
there is part of the instruction, so that executing it raises what the rules say at the point they say. -/
def decode (cfg : Params) : List Byte → Except DecodeError (Instr × List Byte)
  | [] => .error .empty
  | b :: rest =>
    match lookupOpcode (mapOpcode cfg b) opcodeMap with
    | none => .error (.reservedOpcode b)
    | some (.zero i) => .ok (i, rest)
    | some (.one k mk) =>
      let (r, rest) := decodeRef cfg k rest
      .ok (mk r, rest)
    | some (.two k₁ k₂ mk) =>
      let (r₁, rest₁) := decodeRef cfg k₁ rest
      if r₁.decoded then
        let (r₂, rest₂) := decodeRef cfg k₂ rest₁
        .ok (mk r₁ r₂, rest₂)
      else .ok (mk r₁ (.missing 0), rest₁)

/-! ## The encoder -/

/-- The bytes of a reference (R112 to R114). One that is cut off has none that can be
written. -/
def encodeRef (cfg : Params) (k : RefKind) : Ref → List Byte
  | .lit v => [BitVec.ofNat 8 v.toNat]
  | .ind n => [specByte 4 n.val]
  | .autoSkip n => [specByte 5 n.val]
  | .autoInc n => [specByte 6 n.val]
  | .autoIncInd n => [specByte 7 n.val]
  | .offB n off => specByte 8 n.val :: bytesLE 1 off.toNat
  | .offH n off => specByte 9 n.val :: bytesLE 2 off.toNat
  | .offW n off => specByte 10 n.val :: bytesLE 4 off.toNat
  | .offInd n off => specByte 11 n.val :: bytesLE 4 off.toNat
  | .reg n => [specByte 12 n.val]
  | .autoDec n => [specByte 13 n.val]
  | .pcB off => 0xF0 :: bytesLE 1 off.toNat
  | .pcH off => 0xF1 :: bytesLE 2 off.toNat
  | .pcW off => 0xF2 :: bytesLE 4 off.toNat
  | .pcInd off => 0xF3 :: bytesLE 4 off.toNat
  | .spB off => 0xF4 :: bytesLE 1 off.toNat
  | .spH off => 0xF5 :: bytesLE 2 off.toNat
  | .spW off => 0xF6 :: bytesLE 4 off.toNat
  | .spInd off => 0xF7 :: bytesLE 4 off.toNat
  | .dirB a => 0xF8 :: bytesLE 1 a.toNat
  | .dirH a => 0xF9 :: bytesLE 2 a.toNat
  | .dirW a => 0xFA :: bytesLE 4 a.toNat
  | .dirInd a => 0xFB :: bytesLE 4 a.toNat
  | .stk => [tableSpec cfg 0xFC]
  | .imm v => tableSpec cfg 0xFD :: bytesLE (k.immLen.getD 0) v.toNat
  | .illegal b => [b]
  | .missing _ => []

/-- The bytes of an instruction, the opcode first, then its references in order (R110). -/
def encode (cfg : Params) (i : Instr) : List Byte :=
  memOpcode cfg i.parts.opcode :: i.parts.refs.flatMap (fun p => encodeRef cfg p.1 p.2)

/-! ## The host's question -/

/-- The longest instruction, in bytes (R115): an opcode and two references of nine bytes. -/
def maxLength : Nat := 19

/-- The bytes of an instruction word whose bit 0 is the least significant bit of the first byte: its low `nbits`
bits, and zeros up to the longest instruction. -/
def wordBytes (nbits w : Nat) : List Byte := bytesLE maxLength (w % 2 ^ nbits)

/-- The instruction the decoder reads from an instruction word, under the default parameters. -/
def decodeTableWord (nbits w : Nat) : Option Instr :=
  match decode Params.default (wordBytes nbits w) with
  | .ok (i, _) => some i
  | .error _ => none

end Sys2Proof
end

