-- ==== Sys2Proof/Machine/State.lean ====
section
/-! DEFINITION. The state of one node as plain data (10_state.md R20 to R60), the reasons a step can stop, and the
state after reset (70_reset_and_hazards.md R621). -/

namespace Sys2Proof.Machine

open Sys2Proof

/-- P1, PS, by its named fields (R27). The positions of the sixteen low ones are the parameter `PS_LOW_LAYOUT`,
which only the whole word (LDPR 1, STPR 1, interrupt entry, RETI) goes through. Reserved bits are storage (R32). -/
structure PsReg where
  /-- REP, bits 31:30: 00 none, 01 REP, 10 REPZ, 11 REPNZ -/
  rep : BitVec 2
  /-- REP REG, bits 29:26 -/
  repReg : BitVec 4
  /-- RC, bits 25:24 -/
  rc : BitVec 2
  /-- bit 23, reserved -/
  r23 : Bool
  /-- bit 22, reserved -/
  r22 : Bool
  /-- T, Trace -/
  eT : Bool
  /-- IE, Interrupt Enable -/
  eIE : Bool
  /-- IO, Output Enable -/
  eIO : Bool
  /-- II, Input Enable -/
  eII : Bool
  /-- TO, Timeout Enable -/
  eTO : Bool
  /-- CE, Correctable ECC interrupt enable -/
  eCE : Bool
  /-- IV, Integer Overflow Enable -/
  eIV : Bool
  /-- reserved, bit 14 of the default layout -/
  r14 : Bool
  /-- reserved for Invalid Operation Enable -/
  r13 : Bool
  /-- reserved for Zero Divide Enable -/
  r12 : Bool
  /-- reserved for Underflow Enable -/
  r11 : Bool
  /-- IIX, Inexact Result Enable -/
  eIIX : Bool
  /-- IN, Invalid Operation flag -/
  fIN : Bool
  /-- OF, Overflow flag -/
  fOF : Bool
  /-- FZ, Floating Zero Divide flag -/
  fFZ : Bool
  /-- UF, Underflow flag -/
  fUF : Bool
  /-- IX, Inexact Result flag -/
  fIX : Bool
  /-- U, Not Comparable flag -/
  fU : Bool
  /-- N, Negative flag -/
  fN : Bool
  /-- Z, Zero flag -/
  fZ : Bool
  /-- V, Integer Overflow flag -/
  fV : Bool
  /-- C, Carry flag -/
  fC : Bool
  deriving DecidableEq, Repr

/-- PS with every field 0, its value after reset (R27). -/
def PsReg.zero : PsReg where
  rep := 0
  repReg := 0
  rc := 0
  r23 := false
  r22 := false
  eT := false
  eIE := false
  eIO := false
  eII := false
  eTO := false
  eCE := false
  eIV := false
  r14 := false
  r13 := false
  r12 := false
  r11 := false
  eIIX := false
  fIN := false
  fOF := false
  fFZ := false
  fUF := false
  fIX := false
  fU := false
  fN := false
  fZ := false
  fV := false
  fC := false

/-- An input channel (R50, R53, R441): its address and count registers, its latch with the full flag, and the noted
parity and overrun errors (R462). -/
structure InPort where
  address : Word
  count : Word
  latch : Half
  full : Bool
  perr : Bool
  ovr : Bool
  deriving DecidableEq, Repr

/-- An output channel (R50, R52): its address and count registers, its broadcast flag, and the halfwords on the link
it feeds, the oldest first (R457). -/
structure OutPort where
  address : Word
  count : Word
  bcast : Bool
  link : List Half
  deriving DecidableEq, Repr

/-- What the model keeps of the instruction buffer (R57 (a), R100): the addresses written since the last control
transfer, the ones written before it but since the last transfer to distant code, and the ones whose buffered copy may
be older than memory. -/
structure FetchBuffer where
  recent : List Nat
  older : List Nat
  stale : List Nat
  deriving DecidableEq, Repr

/-- Whose turn the next step is (R450, R513, R605). The lists of them in State are the environment's schedule; they are
the model's own (log 9, log 10). Port 10 is the host port (31 or 63). -/
inductive Event where
  /-- the instruction-executing processor -/
  | cpu
  /-- the timeout tick (R513) -/
  | tick
  /-- a halfword, with its parity verdict, reaches input port `p`, where it is wired (R452, R457) -/
  | arrive (p : Fin 11) (h : Half) (bad : Bool)
  /-- input port `p` stores its latch (R452) -/
  | store (p : Fin 11)
  /-- output port `p` sends a halfword (R451) -/
  | send (p : Fin 11)
  /-- the broadcast group sends a halfword (R467) -/
  | broadcast
  /-- the peer takes the head of the link of output port `p` (R457) -/
  | deliver (p : Fin 11)
  /-- the ECC logic corrects an error (R495) -/
  | correctedEcc
  /-- an error that cannot be corrected, in the memory operand of `n` bytes at `a` (R495) -/
  | uncorrectable (a n : Nat)
  /-- the host writes the halfword at byte address `2 * k` of a System Control Board's node (R560, R93) -/
  | hostWrite (k : Nat) (h : Half)
  /-- the host reads the halfword at byte address `2 * k` of a System Control Board's node (R560, R93) -/
  | hostRead (k : Nat)
  deriving DecidableEq, Repr

/-- Memory: the bytes that differ from what an unlisted address reads as, by rising address. -/
abbrev Memory := List Host.Cell

/-- One node (R20). -/
structure State where
  /-- R0..R15 (R21) -/
  regs : Vector Word 16
  /-- the program counter (R24) -/
  pc : Word
  /-- the instruction before ended at the last address, 2^32 - 1, so that the next one would stand at 2^32, which pc, being
  0, cannot hold: its fetch is an Address Error (R24; the model's own, log 13) -/
  pastEnd : Bool
  /-- P0, the stack pointer (R25) -/
  sp : Word
  /-- P1, the program status (R27) -/
  ps : PsReg
  /-- P2, the fault register (R33) -/
  fr : Word
  /-- P3, the configuration register (R36) -/
  cr : Word
  /-- P4, the processor identification (R37) -/
  pi : Word
  /-- P5, the timeout register (R38) -/
  tr : Word
  /-- P8, output enable (R42) -/
  oe : Word
  /-- P9, input enable (R43) -/
  ie : Word
  /-- the input channels: ports 0..9 and 31 (R50) -/
  inp : Vector InPort 11
  /-- the output channels: ports 32..41 and 63 (R50) -/
  out : Vector OutPort 11
  /-- the Error flag (R55) -/
  errorFlag : Bool
  /-- a corrected ECC error not yet reported (R495) -/
  ceLatch : Bool
  /-- an uncorrectable ECC error not yet serviced: address and length of the memory operand it struck (R495) -/
  ueLatch : Option (Nat × Nat)
  /-- interrupt 15 was taken and no RETI has been executed since (R516) -/
  ueActive : Bool
  /-- WAIT is waiting for an interrupt (R421) -/
  idle : Bool
  /-- memory (R80) -/
  mem : Memory
  /-- the instruction buffer (R100) -/
  fetch : FetchBuffer
  /-- the schedule of the agents between the processor's instructions (the model's own, log 9) -/
  events : List Event
  /-- the schedule of the agents within instructions: what moves just before each memory access of the processor to come
  and each selection at an instruction's end (R86, R96; the model's own, log 10) -/
  bus : List (List Event)
  /-- what the reads of the host gave that fell to it by the schedules: which halfword, and what it held, the oldest first
  (R86, R96; the model's own, log 10) -/
  hostReads : List (Nat × Half)
  /-- how many free values have been drawn (the model's own, log 7) -/
  free : Nat
  /-- the launch parameters of R8 (the model's own, log 5) -/
  cfg : Params
  deriving DecidableEq, Repr

/-- A fault of the model. -/
inductive Fault where
  /-- An access to byte address `a`, at or above `MEM_SIZE`: no memory is there and the source does not say what
  happens (R80, D25). Raised by instruction fetch, by every memory operand, pointer, push and pop, by the DMA
  channels and by the host. Safe: the model stops where the hardware goes on in a way nothing states. -/
  | unpopulated (a : Nat)
  deriving DecidableEq, Repr

/-- A refusal of the model: the cases that 93_implementation_defined.md marks `refuse`. -/
inductive Refusal where
  /-- The instruction has no meaning in the model yet. Raised by an arm of `exec` only. Safe. -/
  | notModelled (mnemonic : String)
  /-- LDPR or STPR named Processor register `n`, above 12 (U1, R425). Safe. -/
  | processorRegister (n : Nat)
  /-- LPTR or LCNT named port `p`, which is no port (U2, R442). Safe. -/
  | portNumber (p : Nat)
  /-- BPTR or BCNT was given mask `m`, of which one of bits 30:10 is set (U2, R442). Safe. -/
  | broadcastMask (m : Word)
  /-- BCNT while a broadcast is in progress, BCNT over ports whose address registers differ, BCNT or BPTR on a port
  that is not ready, LCNT or LPTR on a member of a broadcast in progress (U4, R469). Safe. -/
  | broadcastMisuse
  /-- A repeated instruction names its own count register (U3, R404). Safe. -/
  | repeatCountUsed
  /-- An instruction byte at address `a` was fetched whose buffered copy may be older than memory (R100). Safe. -/
  | staleFetch (a : Nat)
  /-- An interrupt entry for number `n` would access memory below 0 or above `MEM_SIZE` (U13, R501). Safe. -/
  | doubleFault (n : Nat)
  deriving DecidableEq, Repr

/-- An input channel after reset (R50, R53). -/
def InPort.zero : InPort := ⟨0, 0, 0, false, false, false⟩

/-- An output channel after reset (R50, R52). -/
def OutPort.zero : OutPort := ⟨0, 0, false, []⟩

/-- The word at 0 after a failed self test is -1 (R92); after a passed one it is what unlisted bytes read as. -/
def resetMemory (cfg : Params) : Memory :=
  if cfg.selfTestPassed then [] else [(0, 0xFF), (1, 0xFF), (2, 0xFF), (3, 0xFF)]

/-- The state at the end of hardware reset under given parameters (R621). SP and FR are undefined there: the values
are the model's (log 1, log 2). -/
def State.resetWith (cfg : Params) : State where
  regs := Vector.replicate 16 0
  pc := cfg.bootEntry
  pastEnd := false
  sp := 0x8000
  ps := .zero
  fr := 0
  cr := (cfg.modelNumber.setWidth 32 <<< 24) ||| (4#32 <<< cfg.crRefr.val)
  pi := if cfg.ioBoard then 0x80000000 else 0
  tr := 0
  oe := 0
  ie := 0
  inp := Vector.replicate 11 .zero
  out := Vector.replicate 11 .zero
  errorFlag := true
  ceLatch := false
  ueLatch := none
  ueActive := false
  idle := false
  mem := resetMemory cfg
  fetch := ⟨[], [], []⟩
  events := []
  bus := []
  hostReads := []
  free := 0
  cfg := cfg

/-- The state after reset under the default parameters. -/
def State.reset : State := State.resetWith Params.default

end Sys2Proof.Machine
end

