-- ==== Sys2Proof/Machine/Memory.lean ====
section
/-! DEFINITION. Memory as a canonical list of bytes: what an unlisted byte reads as, one-byte and little-endian reads
and writes, and the canonical form (20_memory.md R80, R81, R92). -/

namespace Sys2Proof.Machine

open Sys2Proof

/-- What an unlisted address reads as: the Word 1 at address 0, the mark of a passed self test, and 0 everywhere
else. R92 gives this for bytes 0..2048; above 2048 the source says nothing (log 4). -/
def unlisted (a : Nat) : Byte := if a = 0 then 1 else 0

/-- The byte at address `a`. -/
def Memory.read (m : Memory) (a : Nat) : Byte :=
  match m with
  | [] => unlisted a
  | (k, b) :: rest => if k = a then b else Memory.read rest a

/-- One byte put at the head of a list whose addresses lie above `a`, unless it is what `a` reads as anyway. -/
def Memory.cons (a : Nat) (v : Byte) (m : Memory) : Memory :=
  if v = unlisted a then m else (a, v) :: m

/-- Write the byte `v` at address `a`, keeping the canonical form. -/
def Memory.write (m : Memory) (a : Nat) (v : Byte) : Memory :=
  match m with
  | [] => Memory.cons a v []
  | (k, b) :: rest =>
    if a < k then Memory.cons a v ((k, b) :: rest)
    else if a = k then Memory.cons a v rest
    else (k, b) :: Memory.write rest a v

/-- `MemRead(a, n)`: the little-endian number of the `n` bytes at `a` (R81). -/
def Memory.readN (m : Memory) (a : Nat) (n : Nat) : Nat :=
  match n with
  | 0 => 0
  | n + 1 => (m.read a).toNat + 256 * Memory.readN m (a + 1) n

/-- `MemWrite(a, n, v)`: the `n` low bytes of `v` at `a`, little-endian (R81). -/
def Memory.writeN (m : Memory) (a : Nat) (n : Nat) (v : Nat) : Memory :=
  match n with
  | 0 => m
  | n + 1 => Memory.writeN (m.write a (BitVec.ofNat 8 v)) (a + 1) n (v / 256)

/-- Every address lies above `lo`, the addresses rise strictly, and no byte equals what its address reads as. -/
def Memory.wfFrom (lo : Nat) (m : Memory) : Bool :=
  match m with
  | [] => true
  | (k, b) :: rest => decide (lo ≤ k) && decide (b ≠ unlisted k) && Memory.wfFrom (k + 1) rest

/-- The canonical form: equal memories are equal lists. -/
def Memory.wf (m : Memory) : Bool := m.wfFrom 0

end Sys2Proof.Machine
end

