-- ==== Sys2Proof/Machine/Status.lean ====
section
/-! DEFINITION. Registers seen as whole words: PS through `PS_LOW_LAYOUT` (10_state.md R27), P6, P7, P10, P11 and P12
through `PORT_REG_LAYOUT` (R39 to R45), FR through `FR_LAYOUT` (R33, R34), and the port numbers (46_io.md R440). -/

namespace Sys2Proof.Machine

open Sys2Proof

/-- The word whose set bits are the positions listed with `true`. -/
def orBits (w : Nat) : List (Nat × Bool) → BitVec w
  | [] => 0
  | (i, b) :: rest => (if b then 1#w <<< i else 0) ||| orBits w rest

/-! ## PS -/

/-- The sixteen low fields of PS in the order of the parameter (R27). -/
def PsReg.lowFields (p : PsReg) : List Bool :=
  [p.fC, p.fV, p.fZ, p.fN, p.fU, p.fIX, p.fUF, p.fFZ, p.fOF, p.fIN, p.eIIX, p.r11, p.r12, p.r13, p.r14, p.eIV]

/-- Bits 15:0 of PS under a layout (R27). -/
def PsReg.lowHalf (layout : Vector (Fin 16) 16) (p : PsReg) : Half :=
  orBits 16 ((layout.toList.map Fin.val).zip p.lowFields)

/-- Bits 31:16 of PS: REP, REP REG, RC, two reserved bits, T, IE, IO, II, TO, CE (R27). -/
def PsReg.highHalf (p : PsReg) : Half :=
  p.rep ++ p.repReg ++ p.rc ++ BitVec.ofBool p.r23 ++ BitVec.ofBool p.r22 ++ BitVec.ofBool p.eT ++
    BitVec.ofBool p.eIE ++ BitVec.ofBool p.eIO ++ BitVec.ofBool p.eII ++ BitVec.ofBool p.eTO ++ BitVec.ofBool p.eCE

/-- All 32 bits of PS (R27, R32). -/
def PsReg.toWord (cfg : Params) (p : PsReg) : Word := p.highHalf ++ p.lowHalf cfg.psLow

/-- PS from all 32 bits (R27, R32). -/
def PsReg.ofWord (cfg : Params) (w : Word) : PsReg :=
  let low (i : Fin 16) : Bool := w.getLsbD (cfg.psLow.get i).val
  { rep := w.extractLsb' 30 2
    repReg := w.extractLsb' 26 4
    rc := w.extractLsb' 24 2
    r23 := w.getLsbD 23
    r22 := w.getLsbD 22
    eT := w.getLsbD 21
    eIE := w.getLsbD 20
    eIO := w.getLsbD 19
    eII := w.getLsbD 18
    eTO := w.getLsbD 17
    eCE := w.getLsbD 16
    fC := low 0
    fV := low 1
    fZ := low 2
    fN := low 3
    fU := low 4
    fIX := low 5
    fUF := low 6
    fFZ := low 7
    fOF := low 8
    fIN := low 9
    eIIX := low 10
    r11 := low 11
    r12 := low 12
    r13 := low 13
    r14 := low 14
    eIV := low 15 }

/-- The general register REP REG names (R27). -/
def PsReg.repIndex (p : PsReg) : Fin 16 := ⟨p.repReg.toNat, p.repReg.isLt⟩

/-! ## Ports -/

/-- The input channel of a port number: 0..9, and 31 for the host (R440). -/
def inIndex (p : Nat) : Option (Fin 11) :=
  if h : p < 10 then some ⟨p, by omega⟩ else if p = 31 then some 10 else none

/-- The output channel of a port number: 32..41, and 63 for the host (R440). -/
def outIndex (p : Nat) : Option (Fin 11) := if 32 ≤ p then inIndex (p - 32) else none

/-- One flag per port as a word, reserved bits 0 (R39). -/
def portWord (cfg : Params) (flags : List Bool) : Word :=
  orBits 32 ((cfg.portBit.toList.map Fin.val).zip flags)

/-- The flag of port `i` in a word (R39). -/
def portFlag (cfg : Params) (w : Word) (i : Fin 11) : Bool := w.getLsbD (cfg.portBit.get i).val

/-- An input channel is ready: its count is zero (R41, R458). -/
def InPort.ready (p : InPort) : Bool := p.count == 0

/-- An output channel is ready: its count is zero (R40, R458). -/
def OutPort.ready (p : OutPort) : Bool := p.count == 0

/-- P6, Output Ready (R40). -/
def State.readyOut (s : State) : Word := portWord s.cfg (s.out.toList.map OutPort.ready)

/-- P7, Input Ready (R41). -/
def State.readyIn (s : State) : Word := portWord s.cfg (s.inp.toList.map InPort.ready)

/-- P10, Input Pending: the latch is full and the count is zero (R44). -/
def State.pendingIn (s : State) : Word := portWord s.cfg (s.inp.toList.map (fun p => p.full && p.ready))

/-- P11, Input Parity Error, shown while the count is zero (R45, R462). -/
def State.parityIn (s : State) : Word := portWord s.cfg (s.inp.toList.map (fun p => p.perr && p.ready))

/-- P12, Input Overrun Error, shown while the count is zero (R45, R462). -/
def State.overrunIn (s : State) : Word := portWord s.cfg (s.inp.toList.map (fun p => p.ovr && p.ready))

/-! ## Processor registers by number -/

/-- CR as LDPR 3 leaves it: bits 31:24 kept, bits 23:0 loaded (R36, R426). -/
def mergeCr (old new : Word) : Word := (old.extractLsb' 24 8) ++ (new.extractLsb' 0 24)

/-- `P[n]` (R26, R427); none for a number that names no register. -/
def State.procReg (s : State) (n : Nat) : Option Word :=
  match n with
  | 0 => some s.sp
  | 1 => some (s.ps.toWord s.cfg)
  | 2 => some s.fr
  | 3 => some s.cr
  | 4 => some s.pi
  | 5 => some s.tr
  | 6 => some s.readyOut
  | 7 => some s.readyIn
  | 8 => some s.oe
  | 9 => some s.ie
  | 10 => some s.pendingIn
  | 11 => some s.parityIn
  | 12 => some s.overrunIn
  | _ => none

/-- `P[n] <- v` (R426): the read-only registers perform no operation; none for a number that names no register. -/
def State.setProcReg (s : State) (n : Nat) (v : Word) : Option State :=
  match n with
  | 0 => some { s with sp := v }
  | 1 => some { s with ps := PsReg.ofWord s.cfg v }
  | 2 => some { s with fr := v }
  | 3 => some { s with cr := mergeCr s.cr v }
  | 4 => some { s with pi := v }
  | 5 => some { s with tr := v }
  | 6 => some s
  | 7 => some s
  | 8 => some { s with oe := v }
  | 9 => some { s with ie := v }
  | 10 => some s
  | 11 => some s
  | 12 => some s
  | _ => none

/-! ## The Fault Register -/

/-- What FR records of one operand (R33): sign, exponent all zeros, fraction all zeros, exponent all ones. -/
structure FrOperand where
  sign : Bool
  expZero : Bool
  fracZero : Bool
  expOnes : Bool
  deriving DecidableEq, Repr

/-- An operand that the instruction does not have (R313). -/
def FrOperand.unused : FrOperand := ⟨false, false, false, false⟩

/-- The eleven fields of FR (R33, R313). -/
structure FrFields where
  ru : Bool
  rs : Bool
  gr : Bool
  first : FrOperand
  second : FrOperand
  deriving DecidableEq, Repr

/-- The fields in the order of `FR_LAYOUT`: RU, RS, GR, F1, E1, I1, S1, F2, E2, I2, S2 (R33). -/
def FrFields.list (f : FrFields) : List Bool :=
  [f.ru, f.rs, f.gr, f.first.fracZero, f.first.expZero, f.first.expOnes, f.first.sign,
    f.second.fracZero, f.second.expZero, f.second.expOnes, f.second.sign]

/-- FR holding the eleven fields, its reserved bits taken from `reserved` (R34, U7; log 8). -/
def FrFields.toWord (f : FrFields) (reserved : BitVec 21) : Word :=
  orBits 32 (((List.finRange 32).map (fun i => (Config.frLayout i).val)).zip
    (f.list ++ (List.range 21).map (fun i => reserved.getLsbD i)))

/-! ## Plain accessors -/

/-- `R[n]` (R11). -/
def State.reg (s : State) (n : Fin 16) : Word := s.regs.get n

/-- `R[n] <- v` (R11). -/
def State.setReg (s : State) (n : Fin 16) (v : Word) : State := { s with regs := s.regs.set n.val v n.isLt }

/-- Input channel `i`. -/
def State.inPort (s : State) (i : Fin 11) : InPort := s.inp.get i

/-- Output channel `i`. -/
def State.outPort (s : State) (i : Fin 11) : OutPort := s.out.get i

/-- Input channel `i` replaced. -/
def State.setIn (s : State) (i : Fin 11) (p : InPort) : State := { s with inp := s.inp.set i.val p i.isLt }

/-- Output channel `i` replaced. -/
def State.setOut (s : State) (i : Fin 11) (p : OutPort) : State := { s with out := s.out.set i.val p i.isLt }

/-- The output channels changed one by one. -/
def State.mapOut (s : State) (f : Fin 11 → OutPort → OutPort) : State :=
  { s with out := Vector.ofFn (fun i => f i (s.outPort i)) }

end Sys2Proof.Machine
end

