-- ==== Sys2Proof/Machine/Buffer.lean ====
section
/-! DEFINITION. The instruction buffer (20_memory.md R100): which addresses have been written, by any agent, so that a
fetch of them may not see memory. -/

namespace Sys2Proof.Machine

open Sys2Proof

/-- Address `a` may be in the buffer while the instruction at `pc0` executes: within the 16 bytes below it or the
`PREFETCH_WINDOW` bytes above it (R100). -/
def nearPc (cfg : Params) (pc0 : Word) (a : Nat) : Bool :=
  pc0.toNat ≤ a + 16 && a ≤ pc0.toNat + cfg.prefetchWindow

/-- `n` bytes at `a` have been written, by any agent (R100): in a run before the node's first instruction too, since
70_reset_and_hazards.md R630's transfer of control to user code is not in R100's list (log 14, DESIGN CHOICE). -/
def State.noteWrite (s : State) (a n : Nat) : State :=
  { s with fetch := { s.fetch with recent := (List.range n).map (a + ·) ++ s.fetch.recent } }

/-- The instruction at `pc0` has executed: bytes near it written since control last passed to distant code are suspect
(R100 (a)). -/
def State.noteExecuted (s : State) (pc0 : Word) : State :=
  { s with
      fetch :=
        { s.fetch with stale := (s.fetch.recent ++ s.fetch.older).filter (nearPc s.cfg pc0) ++ s.fetch.stale } }

/-- Control passes from `pc0` to `t` (R100). Near `pc0` that is no more than the end of "since the last taken
branch"; to distant code it makes what was written elsewhere fetched as written, and only suspect bytes near `t` stay
(log 14). -/
def State.noteTransfer (s : State) (pc0 t : Word) : State :=
  { s with
      fetch :=
        if nearPc s.cfg pc0 t.toNat then ⟨[], s.fetch.recent ++ s.fetch.older, s.fetch.stale⟩
        else ⟨[], [], s.fetch.stale.filter (nearPc s.cfg t)⟩ }

/-- A fetch of the byte at `a` sees memory (R100 (a)). A byte that was written after reset is not such a byte until control
passes on, the first instruction's own bytes among them (log 14, DESIGN CHOICE). -/
def State.fetchFresh (s : State) (a : Nat) : Bool := !(s.fetch.recent.contains a || s.fetch.stale.contains a)

/-- The first of the `n` bytes from address `a` up whose buffered copy may be older than memory (R100 (b)). -/
def State.staleIn (s : State) (a n : Nat) : Option Nat := ((List.range n).map (a + ·)).find? fun x => !s.fetchFresh x

/-- Memory after a write of the `n` low bytes of `v` at `a`, noted in the instruction buffer. -/
def State.poke (s : State) (a n v : Nat) : State := { s with mem := s.mem.writeN a n v }.noteWrite a n

/-- The first byte of an access at `a` that is not there. -/
def absentByte (memSize a : Nat) : Nat := max a memSize

end Sys2Proof.Machine
end

