-- ==== Sys2Proof/Machine/Agents.lean ====
section
/-! DEFINITION. The agents beside the instruction-executing processor: the DMA channels, the links, the timer tick, the
ECC logic and the host (46_io.md R450 to R468, 60_exceptions.md R495, R513, 61_system_platform.md R560). Each step is
one halfword access; a step that is not enabled changes nothing. They move between the processor's instructions and,
within one, just before each of its memory accesses (20_memory.md R86, R96). -/

namespace Sys2Proof.Machine

open Sys2Proof

/-- The output port can take a halfword (R457, R635 P8). -/
def linkRoom (s : State) (i : Fin 11) : Bool :=
  match s.cfg.wiring.get i with
  | .linked => (s.outPort i).link.length < s.cfg.linkDepth
  | .discards => true
  | .blocked => false

/-- What an output channel is after it sends `h` (R451, R467): the address goes up and the count down by two, and the
halfword is on the link unless the port is wired to nothing. -/
def OutPort.sent (wire : OutWire) (h : Half) (p : OutPort) : OutPort :=
  { p with
      address := p.address + 2
      count := p.count - 2
      link := match wire with
        | .linked => p.link ++ [h]
        | .discards => p.link
        | .blocked => p.link }

/-- `MemRead(a, 2)` by a channel or the host. An address outside memory stops the model (R451, R80). -/
def dmaRead (s : State) (a : Nat) : Except Fault Half :=
  if a + 2 ≤ s.cfg.memSize then .ok (BitVec.ofNat 16 (s.mem.readN a 2))
  else .error (.unpopulated (absentByte s.cfg.memSize a))

/-- The step of output port `i` is enabled (R451). -/
def sendEnabled (s : State) (i : Fin 11) : Bool :=
  (s.outPort i).count != 0 && !(s.outPort i).bcast && linkRoom s i

/-- The output channel step (R451). -/
def sendStep (i : Fin 11) (s : State) : Host.Outcome State Fault Refusal :=
  if sendEnabled s i then
    match dmaRead s (s.outPort i).address.toNat with
    | .ok h => .next (s.setOut i ((s.outPort i).sent (s.cfg.wiring.get i) h))
    | .error f => .fault f
  else .next s

/-- The members of the broadcast group, the lowest port first (R467). -/
def broadcastGroup (s : State) : List (Fin 11) := (List.finRange 11).filter (fun i => (s.outPort i).bcast)

/-- The state after the group sends `h` (R467); its flags are cleared where the count becomes zero (R468). -/
def State.broadcastSent (s : State) (h : Half) : State :=
  s.mapOut fun i p =>
    if p.bcast then
      let q := p.sent (s.cfg.wiring.get i) h
      { q with bcast := !q.ready }
    else p

/-- The broadcast step (R467): one read from the address of the lowest member, sent on every link of the group. -/
def broadcastStep (s : State) : Host.Outcome State Fault Refusal :=
  match broadcastGroup s with
  | [] => .next s
  | i :: rest =>
    if (s.outPort i).count != 0 && (i :: rest).all (linkRoom s) then
      match dmaRead s (s.outPort i).address.toNat with
      | .ok h => .next (s.broadcastSent h)
      | .error f => .fault f
    else .next s

/-- The input channel after a halfword reaches it (R452): what the latch held is overrun, bad parity is noted. -/
def InPort.arrived (h : Half) (bad : Bool) (p : InPort) : InPort :=
  { p with latch := h, full := true, ovr := p.ovr || p.full, perr := p.perr || bad }

/-- The input channel after it stored its latch (R452). -/
def InPort.stored (p : InPort) : InPort := { p with full := false, address := p.address + 2, count := p.count - 2 }

/-- The store step of an input channel is enabled (R452). -/
def storeEnabled (s : State) (i : Fin 11) : Bool := (s.inPort i).full && (s.inPort i).count != 0

/-- The store step of an input channel (R452). -/
def storeStep (i : Fin 11) (s : State) : Host.Outcome State Fault Refusal :=
  let p := s.inPort i
  if storeEnabled s i then
    if p.address.toNat + 2 ≤ s.cfg.memSize then
      .next ((s.poke p.address.toNat 2 p.latch.toNat).setIn i p.stored)
    else .fault (.unpopulated (absentByte s.cfg.memSize p.address.toNat))
  else .next s

/-- The link of output port `i` after its peer took the head (R457). -/
def OutPort.delivered (p : OutPort) : OutPort := { p with link := p.link.tail }

/-- The timer tick (R38, R513). -/
def State.tick (s : State) : State := if s.tr == 0 then s else { s with tr := s.tr - 1 }

/-- The input port receives what reaches it, where it is wired to a port (R457). -/
def State.arrives (s : State) (i : Fin 11) (h : Half) (bad : Bool) : State :=
  if s.cfg.inWired.get i then s.setIn i ((s.inPort i).arrived h bad) else s

/-- An error that cannot be corrected (R495, R516): one more before the last is handled sets the Error flag. Where a
second one falls before interrupt 15 is taken, the source does not say whether 15 is taken twice or which operand is
unspecified: the model keeps the last operand and takes 15 once (log 22, DESIGN CHOICE). -/
def State.noteUncorrectable (s : State) (a n : Nat) : State :=
  { s with
      errorFlag := s.errorFlag || s.ueActive || s.ueLatch.isSome
      ueLatch := some (a, n) }

/-- A host write of an aligned halfword (R560, R95). The host is an agent of the nodes of a System Control Board only:
an array node has no window (R93), and nothing happens to it. Such a write counts as a write of R100 (a) also before the
node's first instruction: whether 70_reset_and_hazards.md R630's transfer of control to user code, which R100 does not
list, comes between is the model's choice (log 14, DESIGN CHOICE). -/
def hostWriteStep (k : Nat) (h : Half) (s : State) : Host.Outcome State Fault Refusal :=
  if !s.cfg.ioBoard then .next s
  else if 2 * k + 2 ≤ s.cfg.memSize then .next (s.poke (2 * k) 2 h.toNat)
  else .fault (.unpopulated (absentByte s.cfg.memSize (2 * k)))

/-- A host read of an aligned halfword (R560, R95): what memory holds then is the host's, and the node is as it was. -/
def hostReadStep (k : Nat) (s : State) : Host.Outcome State Fault Refusal :=
  if !s.cfg.ioBoard then .next s
  else
    match dmaRead s (2 * k) with
    | .ok h => .next { s with hostReads := s.hostReads ++ [(k, h)] }
    | .error f => .fault f

/-- The host takes what its read of the halfword at byte address `2 * k` gave: where the oldest of its reads that fell within
the node's last step was of it, what it gave then (log 10); else the read falls now, and the reads before it are done with. -/
def State.hostTake (s : State) (k : Nat) : Except Fault (State × Half) :=
  match s.hostReads with
  | [] => (dmaRead s (2 * k)).map fun h => (s, h)
  | (j, h) :: rest =>
    if j = k then .ok ({ s with hostReads := rest }, h)
    else (dmaRead s (2 * k)).map fun h => ({ s with hostReads := [] }, h)

/-- The step of an agent other than the processor; `cpu` is the processor's own and changes nothing here. -/
def agentStep (e : Event) (s : State) : Host.Outcome State Fault Refusal :=
  match e with
  | .cpu => .next s
  | .tick => .next s.tick
  | .arrive p h bad => .next (s.arrives p h bad)
  | .store p => storeStep p s
  | .send p => sendStep p s
  | .broadcast => broadcastStep s
  | .deliver p => .next (s.setOut p (s.outPort p).delivered)
  | .correctedEcc => .next { s with ceLatch := true }
  | .uncorrectable a n => .next (s.noteUncorrectable a n)
  | .hostWrite k h => hostWriteStep k h s
  | .hostRead k => hostReadStep k s

/-- Agents move one after the other. -/
def runAgents : List Event → State → Host.Outcome State Fault Refusal
  | [], s => .next s
  | e :: rest, s =>
    match agentStep e s with
    | .next t => runAgents rest t
    | .fault f => .fault f
    | .refused r => .refused r

/-- The agents' turn within an instruction, just before a memory access of the processor or the selection at the
instruction's end (R86, R96, R450; log 10): those that the schedule names move, and where it names none nothing does. -/
def letAgents (s : State) : Host.Outcome State Fault Refusal :=
  match s.bus with
  | [] => .next s
  | es :: rest => runAgents es { s with bus := rest }

end Sys2Proof.Machine
end

