-- ==== Sys2Proof/Machine/Float.lean ====
section
/-! DEFINITION. Floating-point numbers as bit patterns and as exact values: the two formats (43_float.md R300, R301),
rounding once from the exact result (R305), delivery with the wrapped exponent (R306, R308), and the operations.
A pattern is a natural number below `2 ^ width`; an exact value is `± m * 2 ^ e`. -/

namespace Sys2Proof.Machine

open Sys2Proof

/-- A format (R300): `prec` bits of precision, the implicit one counted, and `eBits` bits of exponent. -/
structure Fmt where
  prec : Nat
  eBits : Nat
  deriving DecidableEq, Repr

/-- Real: 24 bits of precision, 8 of exponent (R300). -/
def Fmt.real : Fmt := ⟨24, 8⟩

/-- Longreal: 53 bits of precision, 11 of exponent (R300). -/
def Fmt.long : Fmt := ⟨53, 11⟩

/-- The format of an operand type. -/
def fmtOf : OpType → Fmt
  | .l => .long
  | _ => .real

/-- The bias b (R300): 127 or 1023. -/
def Fmt.bias (f : Fmt) : Nat := 2 ^ (f.eBits - 1) - 1

/-- The exponent field of infinities and NaNs (R300): 255 or 2047. -/
def Fmt.emax (f : Fmt) : Nat := 2 ^ f.eBits - 1

/-- `FP_WRAP_OFFSET` of a format (R306). -/
def Fmt.wrap (cfg : Params) (f : Fmt) : Nat := if f.prec = 24 then cfg.wrapReal else cfg.wrapLong

/-- The sign bit of a pattern. -/
def Fmt.sign (f : Fmt) (x : Nat) : Bool := x / 2 ^ (f.prec + f.eBits - 1) % 2 == 1

/-- The exponent field of a pattern. -/
def Fmt.expo (f : Fmt) (x : Nat) : Nat := x / 2 ^ (f.prec - 1) % 2 ^ f.eBits

/-- The fraction field of a pattern. -/
def Fmt.frac (f : Fmt) (x : Nat) : Nat := x % 2 ^ (f.prec - 1)

/-- A pattern from its three fields (R300). -/
def Fmt.join (f : Fmt) (neg : Bool) (expo frac : Nat) : Nat :=
  (if neg then 2 ^ (f.prec + f.eBits - 1) else 0) + expo * 2 ^ (f.prec - 1) + frac

/-- The zero of a sign. -/
def Fmt.zero (f : Fmt) (neg : Bool) : Nat := f.join neg 0 0

/-- The infinity of a sign. -/
def Fmt.inf (f : Fmt) (neg : Bool) : Nat := f.join neg f.emax 0

/-- The pattern with its sign replaced. -/
def Fmt.withSign (f : Fmt) (neg : Bool) (x : Nat) : Nat := f.join neg (f.expo x) (f.frac x)

/-- What a pattern denotes (R301): a NaN, an infinity, or `± m * 2 ^ e`, a zero having `m = 0`. -/
inductive FVal where
  | nan
  | inf (neg : Bool)
  | fin (neg : Bool) (m : Nat) (e : Int)
  deriving DecidableEq, Repr

/-- The value of a pattern (R301). -/
def Fmt.value (f : Fmt) (x : Nat) : FVal :=
  if f.expo x = f.emax then
    if f.frac x = 0 then .inf (f.sign x) else .nan
  else if f.expo x = 0 then .fin (f.sign x) (f.frac x) (1 - f.bias - (f.prec - 1 : Nat))
  else .fin (f.sign x) (2 ^ (f.prec - 1) + f.frac x) (f.expo x - f.bias - (f.prec - 1 : Nat))

/-- The value with its sign reversed. -/
def FVal.neg : FVal → FVal
  | .nan => .nan
  | .inf s => .inf (!s)
  | .fin s m e => .fin (!s) m e

/-- The pattern is a NaN (R301 case 4). -/
def Fmt.isNan (f : Fmt) (x : Nat) : Bool := f.value x == .nan

/-- `x < 0` as a numerical test: false for both zeros (R312). A NaN pattern is asked about only where the free value
stored for a wrapped result that is still out of range (U9) happens to be one: R312 lists no NaN, and the model takes
its sign bit for C and N (log 30, DESIGN CHOICE). -/
def Fmt.isNeg (f : Fmt) (x : Nat) : Bool := f.sign x && !(f.expo x == 0 && f.frac x == 0)

/-- `x = 0`: true for both zeros (R312). -/
def Fmt.isZero (f : Fmt) (x : Nat) : Bool := f.expo x == 0 && f.frac x == 0

/-- The whole number `± m * 2 ^ e` scaled by `2 ^ (-lo)`, where `lo ≤ e`. -/
def scaled (neg : Bool) (m : Nat) (e lo : Int) : Int :=
  let k : Nat := m * 2 ^ (e - lo).toNat
  if neg then -k else k

/-- `x < y` by numerical order (R334); false where one is a NaN. -/
def FVal.lt (x y : FVal) : Bool :=
  match x, y with
  | .fin s₁ m₁ e₁, .fin s₂ m₂ e₂ => scaled s₁ m₁ e₁ (min e₁ e₂) < scaled s₂ m₂ e₂ (min e₁ e₂)
  | .inf s₁, .inf s₂ => s₁ && !s₂
  | .inf s₁, .fin _ _ _ => s₁
  | .fin _ _ _, .inf s₂ => !s₂
  | _, _ => false

/-- `x = y` by numerical value: -0 equals +0 (R334); false where one is a NaN. -/
def FVal.eq (x y : FVal) : Bool :=
  match x, y with
  | .fin s₁ m₁ e₁, .fin s₂ m₂ e₂ => scaled s₁ m₁ e₁ (min e₁ e₂) == scaled s₂ m₂ e₂ (min e₁ e₂)
  | .inf s₁, .inf s₂ => s₁ == s₂
  | _, _ => false

/-! ## Rounding -/

/-- A rounded value `sig * 2 ^ exp` with what was lost: the first bit beyond the precision, the OR of the bits
beyond it, and whether rounding increased the magnitude (R305, R313). -/
structure Rounded where
  sig : Nat
  exp : Int
  guard : Bool
  rest : Bool
  up : Bool
  deriving DecidableEq, Repr

/-- Rounding changed the value. -/
def Rounded.inexact (r : Rounded) : Bool := r.guard || r.rest

/-- Whether the magnitude is rounded up, by RC (R305): to nearest even, up, down, toward zero. -/
def roundsUp (rc : BitVec 2) (neg odd guard rest : Bool) : Bool :=
  match rc.toNat with
  | 0 => guard && (rest || odd)
  | 1 => !neg && (guard || rest)
  | 2 => neg && (guard || rest)
  | _ => false

/-- `Round` to `p` bits of precision with unbounded exponent (R305), of the value of sign `neg` and magnitude
`q * 2 ^ e`, or, where `sticky` is set, strictly between `q * 2 ^ e` and `(q + 1) * 2 ^ e` with `q` of at least
`p + 2` bits. `q` is not 0. -/
def roundSig (p : Nat) (rc : BitVec 2) (neg : Bool) (q : Nat) (e : Int) (sticky : Bool) : Rounded :=
  let long := q * 2 ^ (p + 2)
  let drop := Nat.log2 long + 1 - p
  let sig := long / 2 ^ drop
  let guard := long / 2 ^ (drop - 1) % 2 == 1
  let rest := long % 2 ^ (drop - 1) != 0 || sticky
  let up := roundsUp rc neg (sig % 2 == 1) guard rest
  let exp := e - (p + 2 : Nat) + drop
  let sig := if up then sig + 1 else sig
  if sig = 2 ^ p then ⟨2 ^ (p - 1), exp + 1, guard, rest, up⟩ else ⟨sig, exp, guard, rest, up⟩

/-- The pattern of `± sig * 2 ^ exp` where `sig` has the format's precision; none outside the normalized range. -/
def Fmt.pack (f : Fmt) (neg : Bool) (sig : Nat) (exp : Int) : Option Nat :=
  let field : Int := exp + (f.prec - 1 : Nat) + f.bias
  if 1 ≤ field ∧ field < f.emax then some (f.join neg field.toNat (sig - 2 ^ (f.prec - 1))) else none

/-- What a floating-point operation ends with: a pattern to store (none: the source defines no value, U9) with its
exception flags and rounding bits, or Invalid (R310), or Zero Divide (R311). -/
inductive FpOut where
  | store (bits : Option Nat) (ix uf ov guard rest up : Bool)
  | invalid
  | zeroDivide
  deriving DecidableEq, Repr

/-- A result that needed no rounding and raises nothing. -/
def FpOut.exact (x : Nat) : FpOut := .store (some x) false false false false false false

/-- `Deliver(fmt, x)` for a nonzero `x` (R306, R308): tininess is judged on the exact value, overflow on the rounded
one, and either stores the result with its exponent wrapped by the offset. -/
def Fmt.deliver (f : Fmt) (wrap : Nat) (rc : BitVec 2) (neg : Bool) (q : Nat) (e : Int) (sticky : Bool) : FpOut :=
  let r := roundSig f.prec rc neg q e sticky
  if e + Nat.log2 q < 1 - (f.bias : Int) then
    .store (f.pack neg r.sig (r.exp + wrap)) r.inexact true false r.guard r.rest r.up
  else if r.exp + (f.prec - 1 : Nat) > f.bias then
    .store (f.pack neg r.sig (r.exp - wrap)) r.inexact false true r.guard r.rest r.up
  else .store (f.pack neg r.sig r.exp) r.inexact false false r.guard r.rest r.up

/-! ## The operations on values -/

/-- `x + y` (R309 (b) to (d), R314). -/
def Fmt.add (f : Fmt) (wrap : Nat) (rc : BitVec 2) (x y : FVal) : FpOut :=
  match x, y with
  | .nan, _ => .invalid
  | _, .nan => .invalid
  | .inf s₁, .inf s₂ => if s₁ = s₂ then .exact (f.inf s₁) else .invalid
  | .inf s, .fin _ _ _ => .exact (f.inf s)
  | .fin _ _ _, .inf s => .exact (f.inf s)
  | .fin s₁ m₁ e₁, .fin s₂ m₂ e₂ =>
    let lo := min e₁ e₂
    let sum := scaled s₁ m₁ e₁ lo + scaled s₂ m₂ e₂ lo
    if sum = 0 then
      if m₁ = 0 ∧ m₂ = 0 ∧ s₁ = s₂ then .exact (f.zero s₁) else .exact (f.zero (rc == 2))
    else f.deliver wrap rc (decide (sum < 0)) sum.natAbs lo false

/-- `x * y` (R309 (a), (c), (d), R314). -/
def Fmt.mul (f : Fmt) (wrap : Nat) (rc : BitVec 2) (x y : FVal) : FpOut :=
  match x, y with
  | .nan, _ => .invalid
  | _, .nan => .invalid
  | .inf s₁, .inf s₂ => .exact (f.inf (s₁ != s₂))
  | .inf s₁, .fin s₂ m₂ _ => if m₂ = 0 then .invalid else .exact (f.inf (s₁ != s₂))
  | .fin s₁ m₁ _, .inf s₂ => if m₁ = 0 then .invalid else .exact (f.inf (s₁ != s₂))
  | .fin s₁ m₁ e₁, .fin s₂ m₂ e₂ =>
    if m₁ = 0 ∨ m₂ = 0 then .exact (f.zero (s₁ != s₂))
    else f.deliver wrap rc (s₁ != s₂) (m₁ * m₂) (e₁ + e₂) false

/-- `x / y` (R309, R311, R314, R336): 0/0 and infinity/infinity are Invalid, a finite nonzero dividend over zero is
Zero Divide, and an infinite one over zero is infinity. -/
def Fmt.div (f : Fmt) (wrap : Nat) (rc : BitVec 2) (x y : FVal) : FpOut :=
  match x, y with
  | .nan, _ => .invalid
  | _, .nan => .invalid
  | .inf _, .inf _ => .invalid
  | .inf s₁, .fin s₂ _ _ => .exact (f.inf (s₁ != s₂))
  | .fin s₁ _ _, .inf s₂ => .exact (f.zero (s₁ != s₂))
  | .fin s₁ m₁ e₁, .fin s₂ m₂ e₂ =>
    if m₂ = 0 then
      if m₁ = 0 then .invalid else .zeroDivide
    else if m₁ = 0 then .exact (f.zero (s₁ != s₂))
    else
      let k := f.prec + 3 + Nat.log2 m₂
      let num := m₁ * 2 ^ k
      f.deliver wrap rc (s₁ != s₂) (num / m₂) (e₁ - e₂ - k) (num % m₂ != 0)

/-- The exact remainder of `d` by `s` (R340): `d` itself for an infinite `s`, else `d - s * trunc (d / s)`, with the
sign of `d`; none in the Invalid cases. -/
def remValue (d s : FVal) : Option FVal :=
  match d, s with
  | .fin sd md ed, .inf _ => some (.fin sd md ed)
  | .fin sd md ed, .fin _ ms es =>
    if ms = 0 then none
    else
      let lo := min ed es
      some (.fin sd ((md * 2 ^ (ed - lo).toNat) % (ms * 2 ^ (es - lo).toNat)) lo)
  | _, _ => none

/-- A finite exact value delivered; a zero keeps its sign. -/
def Fmt.deliverValue (f : Fmt) (wrap : Nat) (rc : BitVec 2) (x : FVal) : FpOut :=
  match x with
  | .nan => .invalid
  | .inf s => .exact (f.inf s)
  | .fin s m e => if m = 0 then .exact (f.zero s) else f.deliver wrap rc s m e false

/-- `d REM s` (R340). -/
def Fmt.rem (f : Fmt) (wrap : Nat) (rc : BitVec 2) (d s : FVal) : FpOut :=
  match remValue d s with
  | none => .invalid
  | some x => f.deliverValue wrap rc x

/-- The bits of the whole square root of `n`, from bit `k - 1` down, added to the root `r` found so far. -/
def isqrtFrom (n : Nat) (k : Nat) (r : Nat) : Nat :=
  match k with
  | 0 => r
  | k + 1 => isqrtFrom n k (if (r + 2 ^ k) * (r + 2 ^ k) ≤ n then r + 2 ^ k else r)

/-- The whole square root of `n`, rounded down. -/
def isqrt (n : Nat) : Nat := isqrtFrom n (Nat.log2 n / 2 + 1) 0

/-- The square root (R342): Invalid for a NaN and for a negative nonzero operand. -/
def Fmt.sqrt (f : Fmt) (rc : BitVec 2) (x : FVal) : FpOut :=
  match x with
  | .nan => .invalid
  | .inf s => if s then .invalid else .exact (f.inf false)
  | .fin s m e =>
    if m = 0 then .exact (f.zero s)
    else if s then .invalid
    else
      let k := 2 * f.prec + 6 + (if e % 2 = 0 then 0 else 1)
      let n := m * 2 ^ k
      let q := isqrt n
      let r := roundSig f.prec rc false q ((e - k) / 2) (n != q * q)
      .store (f.pack false r.sig r.exp) r.inexact false false r.guard r.rest r.up

/-- The Real or Longreal of a whole number, rounded (R346); exact where the number fits the precision. -/
def Fmt.ofInt (f : Fmt) (rc : BitVec 2) (i : Int) : FpOut :=
  if i = 0 then .exact (f.zero false)
  else
    let r := roundSig f.prec rc (decide (i < 0)) i.natAbs 0 false
    .store (f.pack (decide (i < 0)) r.sig r.exp) r.inexact false false r.guard r.rest r.up

/-- The pattern that an outcome stores, 0 where it stores none. -/
def FpOut.bits : FpOut → Nat
  | .store (some x) _ _ _ _ _ _ => x
  | _ => 0

/-- The pattern of a literal as a real operand (R161): the real value of the 6-bit integer, exactly. -/
def Fmt.literal (f : Fmt) (k : BitVec 6) : Nat := (f.ofInt 0 k.toInt).bits

/-- A finite value rounded to a whole number by RC (R352), with the rounding bits. -/
structure RoundedInt where
  value : Int
  guard : Bool
  rest : Bool
  up : Bool
  deriving DecidableEq, Repr

/-- Rounding `± m * 2 ^ e` to a whole number (R352). -/
def roundToInt (rc : BitVec 2) (neg : Bool) (m : Nat) (e : Int) : RoundedInt :=
  if 0 ≤ e then ⟨scaled neg m e 0, false, false, false⟩
  else
    let k := (-e).toNat
    let q := m / 2 ^ k
    let guard := m / 2 ^ (k - 1) % 2 == 1
    let rest := m % 2 ^ (k - 1) != 0
    let up := roundsUp rc neg (q % 2 == 1) guard rest
    ⟨scaled neg (if up then q + 1 else q) 0 0, guard, rest, up⟩

end Sys2Proof.Machine
end

