-- ==== Sys2Proof/Machine/Ops.lean ====
section
/-! DEFINITION. The shared operations: the four ways a part of an instruction can end, memory accesses with their
checks (40_operands.md R191), each a sequence of the accesses that are atomic (20_memory.md R86), the stack
(60_exceptions.md R501), taking an interrupt (R500) and returning from one (R503), and free values. -/

namespace Sys2Proof.Machine

open Sys2Proof

/-- How a part of an instruction ends: with a value and a state, with an exception that ends the instruction early
(R483, R498 item 1), with a fault, or with a refusal. -/
inductive Flow (α : Type) where
  | ok (a : α) (s : State)
  /-- interrupt `n` is to be taken with address `a` pushed -/
  | trap (n : Nat) (a : Word) (s : State)
  | fault (f : Fault)
  | refuse (r : Refusal)

/-- Go on with the value and the state of a part that ended well. -/
def Flow.bind {α β : Type} (x : Flow α) (f : α → State → Flow β) : Flow β :=
  match x with
  | .ok a s => f a s
  | .trap n a s => .trap n a s
  | .fault r => .fault r
  | .refuse r => .refuse r

/-- The agents' turn as a part of an instruction. -/
def agentsTurn (s : State) : Flow Unit :=
  match letAgents s with
  | .next t => .ok () t
  | .fault f => .fault f
  | .refused r => .refuse r

/-! ## Free values -/

/-- The next free value of width `w` (log 7). -/
def State.freeNext (s : State) (w : Nat) : BitVec w := Config.freeValue w s.free

/-- `k` free values have been drawn. -/
def State.drew (s : State) (k : Nat) : State := { s with free := s.free + k }

/-! ## Memory accesses -/

/-- Whether an access of `n` bytes at `a` can be made. -/
inductive Access where
  | present
  /-- a byte would lie past 2^32 - 1: Address Error (R191) -/
  | addressError
  /-- a byte would lie at or above `MEM_SIZE` (R80) -/
  | absent
  deriving DecidableEq, Repr

/-- The check of an access (R191 (b), R80): with memory over the whole address space only Address Error is left;
with less, the model stops first ("refused earlier", R191; log 12). -/
def checkAccess (memSize a n : Nat) : Access :=
  if 2 ^ 32 ≤ memSize then
    if a + n ≤ 2 ^ 32 then .present else .addressError
  else if a + n ≤ memSize then .present
  else .absent

/-- The atomic accesses that `n` bytes at `a` take, each its address and length (R86): bytes and aligned halfwords, the
lowest address first. R86 does not say how a wide or misaligned access is cut into them: the model takes an aligned
halfword wherever two bytes of one are left, so that a Word at an odd address is a byte, a halfword and a byte (log 39,
DESIGN CHOICE). -/
def atoms (a : Nat) : Nat → List (Nat × Nat)
  | 0 => []
  | 1 => [(a, 1)]
  | n + 2 => if a % 2 = 0 then (a, 2) :: atoms (a + 2) n else (a, 1) :: atoms (a + 1) (n + 1)

/-- Atomic reads one after the other, the agents moving before each; the value is the little-endian number of what
they read (R81, R96). -/
def readAtoms : List (Nat × Nat) → State → Flow Nat
  | [], s => .ok 0 s
  | (a, k) :: rest, s =>
    (agentsTurn s).bind fun _ s =>
      (readAtoms rest s).bind fun w t => .ok (s.mem.readN a k + 256 ^ k * w) t

/-- Atomic writes of a little-endian number one after the other, the agents moving before each (R81, R96). -/
def writeAtoms : List (Nat × Nat) → Nat → State → Flow Unit
  | [], _, s => .ok () s
  | (a, k) :: rest, v, s =>
    (agentsTurn s).bind fun _ s => writeAtoms rest (v / 256 ^ k) { s with mem := s.mem.writeN a k v }

/-- `MemRead(a, n)` inside an instruction. An Address Error pushes `pc0`, which `pc` still holds (R492, R502). -/
def loadN (a : Word) (n : Nat) (s : State) : Flow Nat :=
  match checkAccess s.cfg.memSize a.toNat n with
  | .present => readAtoms (atoms a.toNat n) s
  | .addressError => .trap 11 s.pc s
  | .absent => .fault (.unpopulated (absentByte s.cfg.memSize a.toNat))

/-- `MemWrite(a, n, v)` inside an instruction. -/
def storeN (a : Word) (n : Nat) (v : Nat) (s : State) : Flow Unit :=
  match checkAccess s.cfg.memSize a.toNat n with
  | .present => writeAtoms (atoms a.toNat n) v (s.noteWrite a.toNat n)
  | .addressError => .trap 11 s.pc s
  | .absent => .fault (.unpopulated (absentByte s.cfg.memSize a.toNat))

/-! ## The stack -/

/-- A push of `n` bytes (R176, R501): SP moves down, then the bytes are written at it. -/
def pushN (n : Nat) (v : Nat) (s : State) : Flow Unit :=
  let sp := s.sp - BitVec.ofNat 32 n
  storeN sp n v { s with sp := sp }

/-- A pop of `n` bytes (R176, R501): the bytes at SP are read, then SP moves up. -/
def popN (n : Nat) (s : State) : Flow Nat :=
  (loadN s.sp n s).bind fun v s => .ok v { s with sp := s.sp + BitVec.ofNat 32 n }

/-- `push4(v)` (R501). -/
def push4 (v : Word) (s : State) : Flow Unit := pushN 4 v.toNat s

/-- `pop4()` (R501). -/
def pop4 (s : State) : Flow Word := (popN 4 s).bind fun v s => .ok (BitVec.ofNat 32 v) s

/-! ## Taking an interrupt and returning from one -/

/-- The two pushes and the two vector reads of an entry for number `n` fall inside memory (R501, U13). -/
def entryFits (s : State) (n : Nat) : Bool :=
  8 ≤ s.sp.toNat && s.sp.toNat ≤ s.cfg.memSize && 8 * n + 8 ≤ s.cfg.memSize

/-- The handler address of vector `n` (R481). -/
def vectorVA (m : Memory) (n : Nat) : Word := BitVec.ofNat 32 (m.readN (8 * n) 4)

/-- The new Program Status of vector `n` (R481). -/
def vectorNPS (m : Memory) (n : Nat) : Word := BitVec.ofNat 32 (m.readN (8 * n + 4) 4)

/-- The state at a handler at `va` under the Program Status `nps`: the processor is Idle no more (R500). An entry is a
control transfer (R100); from where its distance to distant code is measured neither R100 nor D4 says. The model measures
from pc as the entry finds it: `pc0` where an exception ended the instruction early and in TRAP and BKPT, else the next
instruction, which for a taken branch is its target (log 14, DESIGN CHOICE). -/
def State.handling (s : State) (va nps : Word) : State :=
  { s with pc := va, pastEnd := false, ps := PsReg.ofWord s.cfg nps, idle := false }.noteTransfer s.pc va

/-- The accesses of an entry for number `n` in their order (R500, D59): PS is pushed first, then the address, which is
on top, and then the vector's two Words are read. -/
def entrySequence (n : Nat) (a : Word) (s : State) : Flow Unit :=
  (push4 (s.ps.toWord s.cfg) s).bind fun _ s =>
    (push4 a s).bind fun _ s =>
      (loadN (BitVec.ofNat 32 (8 * n)) 4 s).bind fun va s =>
        (loadN (BitVec.ofNat 32 (8 * n + 4)) 4 s).bind fun nps s =>
          .ok () (s.handling (BitVec.ofNat 32 va) (BitVec.ofNat 32 nps))

/-- Taking interrupt `n` with address `a` pushed (R500): the one entry sequence of the machine, for every interrupt,
for TRAP and for BKPT. An entry that does not fit memory is refused (U13). -/
def enter (n : Nat) (a : Word) (s : State) : Flow Unit :=
  if entryFits s n then entrySequence n a s else .refuse (.doubleFault n)

/-- The return from an interrupt (R420, R503): pc and then all 32 bits of PS are popped, and the uncorrectable-error
handling is over (R516). The value is the restored pc. -/
def returnFromInterrupt (s : State) : Flow Word :=
  (pop4 s).bind fun target s =>
    (pop4 s).bind fun w s =>
      .ok target { s with ps := PsReg.ofWord s.cfg w, ueActive := false }

/-! ## An uncorrectable memory error -/

/-- The flags of PS replaced by ten free bits (R495, U12). -/
def PsReg.withFlags (p : PsReg) (b : BitVec 10) : PsReg :=
  { p with
      fC := b.getLsbD 0
      fV := b.getLsbD 1
      fZ := b.getLsbD 2
      fN := b.getLsbD 3
      fU := b.getLsbD 4
      fIX := b.getLsbD 5
      fUF := b.getLsbD 6
      fFZ := b.getLsbD 7
      fOF := b.getLsbD 8
      fIN := b.getLsbD 9 }

/-- Free bytes at `k` addresses from `a` upward, each below `memSize`. -/
def scrambleBytes (memSize : Nat) (a k : Nat) (draw : Nat) (m : Memory) : Memory :=
  match k with
  | 0 => m
  | k + 1 =>
    let m := if a < memSize then m.write a (Config.freeValue 8 draw) else m
    scrambleBytes memSize (a + 1) k (draw + 1) m

/-- The state in which interrupt 15 is taken (R495, U12): every General register, the flags and the bytes of the
memory operand that was struck are free values; the error is being serviced. -/
def State.scramble (s : State) (a n : Nat) : State :=
  { s with
      regs := Vector.ofFn (fun i : Fin 16 => Config.freeValue 32 (s.free + i.val))
      ps := s.ps.withFlags (Config.freeValue 10 (s.free + 16))
      mem := scrambleBytes s.cfg.memSize a n (s.free + 18) s.mem
      ueLatch := none
      ueActive := true
      free := s.free + 18 + n }.noteWrite a n

/-- Taking interrupt 15: the pushed address is a free value too (R502, U12). -/
def enterUncorrectable (a n : Nat) (s : State) : Flow Unit :=
  enter 15 (Config.freeValue 32 (s.free + 17)) (s.scramble a n)

/-! ## Outcomes -/

/-- An entry for number `n` as the end of a step. Its accesses have been found to fit, so that none of them traps. -/
def entryOutcome (n : Nat) (x : Flow Unit) : Host.Outcome State Fault Refusal :=
  match x with
  | .ok _ s => .next s
  | .trap _ _ _ => .refused (.doubleFault n)
  | .fault f => .fault f
  | .refuse r => .refused r

end Sys2Proof.Machine
end

