-- ==== Sys2Proof/Machine/Operands.lean ====
section
/-! DEFINITION. How a reference becomes an operand (40_operands.md): its evaluation with the side effects of its mode,
the location it gives, and reading and writing a location. While an instruction runs `pc` holds `pc0`. -/

namespace Sys2Proof.Machine

open Sys2Proof

/-- What evaluating a reference gives (R153). -/
inductive Loc where
  | lit (k : BitVec 6)
  /-- the bits of the operand itself: those of an immediate, or those that a pop has read (R176) -/
  | imm (v : BitVec 64)
  | reg (n : Fin 16)
  | mem (a : Word)
  /-- a stack-mode destination that is only written: the store pushes (R176) -/
  | push
  deriving DecidableEq, Repr

/-- What the instruction does with the reference, where the mode depends on it (R176, R180, R181). -/
inductive Role where
  /-- REFERENCE 1, read: stack mode pops -/
  | src
  /-- REFERENCE 2, read and then written: stack mode is the stack top, SP unchanged -/
  | modify
  /-- REFERENCE 2, written only: stack mode pushes -/
  | write
  /-- REFERENCE 2, read only: stack mode is the stack top, SP unchanged -/
  | look
  /-- the address form: stack mode is SP itself -/
  | address
  deriving DecidableEq, Repr

/-- Whether a result is stored through the reference, so that a literal or immediate is an Operand Error (R181). -/
def Role.stores : Role → Bool
  | .modify => true
  | .write => true
  | _ => false

/-- An effective address: the exact sum of a base and a signed offset, or Address Error outside 0..2^32 - 1
(R191 (a)). -/
def sumAddress (base : Word) (off : Int) (s : State) : Flow Word :=
  let x : Int := base.toNat + off
  if 0 ≤ x ∧ x < 2 ^ 32 then .ok (BitVec.ofInt 32 x) s else .trap 11 s.pc s

/-- The location a pointer in memory gives, for the indirect modes (R165, R169, R172, R174, R175). -/
def pointer (p : Word) (s : State) : Flow Loc :=
  (loadN p 4 s).bind fun v s => .ok (.mem (BitVec.ofNat 32 v)) s

/-- A memory location at the sum of a base and an offset (R168, R171, R173). -/
def atSum (base : Word) (off : Int) (s : State) : Flow Loc :=
  (sumAddress base off s).bind fun a s => .ok (.mem a) s

/-- A memory location through the pointer at the sum of a base and an offset (R169, R172, R174). -/
def throughSum (base : Word) (off : Int) (s : State) : Flow Loc :=
  (sumAddress base off s).bind fun p s => pointer p s

/-- Operand Error: interrupt 16 pushes the address of the byte after the offending specifier (R499, R502). -/
def operandError {α : Type} (afterSpec : Word) (s : State) : Flow α := .trap 16 afterSpec s

/-- An instruction byte is not there to fetch: past 2^32 - 1 it is an Address Error (R24), in a smaller memory the
model stops (R80). The bytes before it are fetched first, so that a suspect one of them has been refused by then
(20_memory.md R100 (b), log 14). -/
def missingBytes {α : Type} (s : State) : Flow α :=
  if 2 ^ 32 ≤ s.cfg.memSize then .trap 11 s.pc s
  else .fault (.unpopulated (absentByte s.cfg.memSize s.pc.toNat))

/-- The evaluation of a reference (R150 steps 3 and 4, R151): `len` is the operand's length, `sp0` the value of SP at
the start of the instruction (R152), `afterSpec` the address of the byte after the mode specifier. A stack-mode source is
read once, at its pop (R176). A stack-mode destination that is only written moves SP with its store, and not where an
exception leaves nothing to store (log 37, DESIGN CHOICE). -/
def evalRef (role : Role) (len : Nat) (sp0 afterSpec : Word) (r : Ref) (s : State) : Flow Loc :=
  match r with
  | .lit k => if role.stores then operandError afterSpec s else .ok (.lit k) s
  | .imm v => if role.stores || role == .address then operandError afterSpec s else .ok (.imm v) s
  | .reg n => .ok (.reg n) s
  | .ind n => .ok (.mem (s.reg n)) s
  | .autoSkip n => .ok (.mem (s.reg n)) (s.setReg n (s.reg n + s.reg (n + 1)))
  | .autoInc n => .ok (.mem (s.reg n)) (s.setReg n (s.reg n + BitVec.ofNat 32 len))
  | .autoIncInd n => (pointer (s.reg n) s).bind fun l s => .ok l (s.setReg n (s.reg n + 4))
  | .autoDec n =>
    let a := s.reg n - BitVec.ofNat 32 len
    .ok (.mem a) (s.setReg n a)
  | .offB n off => atSum (s.reg n) off.toInt s
  | .offH n off => atSum (s.reg n) off.toInt s
  | .offW n off => atSum (s.reg n) off.toInt s
  | .offInd n off => throughSum (s.reg n) off.toInt s
  | .pcB off => atSum s.pc off.toInt s
  | .pcH off => atSum s.pc off.toInt s
  | .pcW off => atSum s.pc off.toInt s
  | .pcInd off => throughSum s.pc off.toInt s
  | .spB off => atSum sp0 off.toInt s
  | .spH off => atSum sp0 off.toInt s
  | .spW off => atSum sp0 off.toInt s
  | .spInd off => throughSum sp0 off.toInt s
  | .dirB a => .ok (.mem (a.setWidth 32)) s
  | .dirH a => .ok (.mem (a.setWidth 32)) s
  | .dirW a => .ok (.mem a) s
  | .dirInd p => pointer p s
  | .stk =>
    match role with
    | .src => (popN len s).bind fun v s => .ok (.imm (BitVec.ofNat 64 v)) s
    | .write => .ok .push s
    | .modify => .ok (.mem s.sp) s
    | .look => .ok (.mem s.sp) s
    | .address => .ok (.mem s.sp) s
  | .illegal _ => operandError afterSpec s
  | .missing _ => missingBytes s

/-! ## Reading and writing a location -/

/-- The value of a literal as an operand: a 2's complement integer, or the real of the same value (R161). -/
def literalValue (t : OpType) (k : BitVec 6) : BitVec t.bits :=
  if t.isReal then BitVec.ofNat t.bits ((fmtOf t).literal k) else k.signExtend t.bits

/-- `ReadOp(Reg(n), T)` (R160): the low bits of `R[n]`; for a Longreal the pair `R[n+1] ++ R[n]`, R0 after R15. -/
def readReg (t : OpType) (n : Fin 16) (s : State) : BitVec t.bits :=
  match t with
  | .b => (s.reg n).setWidth 8
  | .h => (s.reg n).setWidth 16
  | .w => s.reg n
  | .r => s.reg n
  | .l => s.reg (n + 1) ++ s.reg n

/-- `WriteOp(Reg(n), T, v)` (R160): a Byte or Halfword is sign-extended; a Longreal fills the pair. -/
def writeReg (t : OpType) (n : Fin 16) (v : BitVec t.bits) (s : State) : State :=
  match t with
  | .b => s.setReg n (v.signExtend 32)
  | .h => s.setReg n (v.signExtend 32)
  | .w => s.setReg n v
  | .r => s.setReg n v
  | .l => (s.setReg n (v.setWidth 32)).setReg (n + 1) (v.extractLsb' 32 32)

/-- `ReadOp(loc, T)` (R153). A location to push to is never read. -/
def readLoc (t : OpType) (l : Loc) (s : State) : Flow (BitVec t.bits) :=
  match l with
  | .lit k => .ok (literalValue t k) s
  | .imm v => .ok (v.setWidth t.bits) s
  | .reg n => .ok (readReg t n s) s
  | .mem a => (loadN a t.len s).bind fun v s => .ok (BitVec.ofNat t.bits v) s
  | .push => .ok 0 s

/-- `WriteOp(loc, T, v)` (R153). Evaluation has raised Operand Error before a literal or immediate comes here. -/
def writeLoc (t : OpType) (l : Loc) (v : BitVec t.bits) (s : State) : Flow Unit :=
  match l with
  | .lit _ => .ok () s
  | .imm _ => .ok () s
  | .reg n => .ok () (writeReg t n v s)
  | .mem a => storeN a t.len v.toNat s
  | .push => pushN t.len v.toNat s

/-- `Target(ref)` of an evaluated address form (R180): relative to `pc0` for Literal and Register Direct, the address
itself otherwise. -/
def targetOf (l : Loc) (s : State) : Word :=
  match l with
  | .lit k => s.pc + k.signExtend 32
  | .imm _ => s.pc
  | .reg n => s.pc + s.reg n
  | .mem a => a
  | .push => s.sp

/-- The evaluation of an address form to its target (R180): side effects use length 4, no data is accessed. -/
def evalTarget (sp0 afterSpec : Word) (r : Ref) (s : State) : Flow Word :=
  (evalRef .address 4 sp0 afterSpec r s).bind fun l s => .ok (targetOf l s) s

/-! ## The count register of a repeat -/

/-- The reference names register `c` as an operand or in its address (U3). -/
def Ref.names (k : RefKind) (c : Fin 16) : Ref → Bool
  | .reg n => n == c || (n + 1 == c && k.len == 8)
  | .ind n => n == c
  | .autoSkip n => n == c || n + 1 == c
  | .autoInc n => n == c
  | .autoIncInd n => n == c
  | .autoDec n => n == c
  | .offB n _ => n == c
  | .offH n _ => n == c
  | .offW n _ => n == c
  | .offInd n _ => n == c
  | _ => false

/-- The instruction names register `c` in one of its references (U3). -/
def namesRegister (c : Fin 16) (i : Instr) : Bool := i.parts.refs.any (fun p => Ref.names p.1 c p.2)

end Sys2Proof.Machine
end

