-- ==== Sys2Proof/Machine/Flags.lean ====
section
/-! DEFINITION. The computations: from operand values and PS to a result, the new PS, and what is signalled at the end
of the instruction. Integer cores (41_integer_arith.md R200 to R203), logic and shifts (42_logic_shift.md), and the
floating-point flags (43_float.md R310 to R313). -/

namespace Sys2Proof.Machine

open Sys2Proof

/-- The floating-point exceptions that are signalled after the result is stored (R306). -/
inductive FpKind where
  | underflow
  | overflow
  | inexact
  deriving DecidableEq, Repr

/-- What an instruction that stored its result signals at its end: Integer Overflow (R186), and at most one
floating-point exception with the fields FR receives if it is taken (R313). -/
structure Signal where
  integerOverflow : Bool
  fp : Option (FpKind × FrFields)
  deriving DecidableEq, Repr

/-- Nothing to signal. -/
def Signal.none : Signal := ⟨false, Option.none⟩

/-- What a computation ends with. -/
inductive Calc (w : Nat) where
  /-- store `v`, write PS, signal; `draws` free values were used -/
  | done (v : BitVec w) (ps : PsReg) (sig : Signal) (draws : Nat)
  /-- interrupt `n` with nothing stored; `fr` is what the Fault Register receives (R310, R311, R203) -/
  | raise (n : Nat) (ps : PsReg) (fr : Option FrFields)
  deriving DecidableEq, Repr

/-! ## PS updates -/

/-- C, V, N and Z written, U cleared: the Flags line of ADD and SUB (R200, R201). -/
def PsReg.withArith (p : PsReg) (c v n z : Bool) : PsReg :=
  { p with fC := c, fV := v, fN := n, fZ := z, fU := false }

/-- N and Z written, V and U cleared, C kept: `LogicFlags` (R260). -/
def PsReg.withLogic (p : PsReg) (n z : Bool) : PsReg := { p with fN := n, fZ := z, fV := false, fU := false }

/-- The five floating-point exception flags (R29). -/
def PsReg.withFp (p : PsReg) (ix uf fz ov inv : Bool) : PsReg :=
  { p with fIX := ix, fUF := uf, fFZ := fz, fOF := ov, fIN := inv }

/-- All five floating-point exception flags cleared. -/
def PsReg.clearFp (p : PsReg) : PsReg := p.withFp false false false false false

/-! ## Integer cores -/

/-- The result of an integer core with its flags. -/
structure IntResult (w : Nat) where
  res : BitVec w
  c : Bool
  v : Bool
  n : Bool
  z : Bool
  deriving DecidableEq, Repr

/-- The exact value does not fit `w` bits of 2's complement (R28, R200). -/
def outOfRange (w : Nat) (x : Int) : Bool := x < -(2 ^ (w - 1)) || 2 ^ (w - 1) ≤ x

/-- `AddCore(n, x, y, cin)` (R200). -/
def addCore {w : Nat} (x y : BitVec w) (cin : Bool) : IntResult w :=
  let eu := x.toNat + y.toNat + cin.toNat
  let es := x.toInt + y.toInt + (cin.toNat : Int)
  let res := BitVec.ofNat w eu
  ⟨res, decide (2 ^ w ≤ eu), outOfRange w es, decide (es < 0), res == 0⟩

/-- `SubCore(n, x, y, bin)` (R201): x - y - bin. -/
def subCore {w : Nat} (x y : BitVec w) (bin : Bool) : IntResult w :=
  let eu : Int := (x.toNat : Int) - y.toNat - bin.toNat
  let es := x.toInt - y.toInt - (bin.toNat : Int)
  let res := BitVec.ofInt w eu
  ⟨res, decide (eu < 0), outOfRange w es, decide (es < 0), res == 0⟩

/-- `MulCore(n, x, y)` (R202); `c` is not part of it and is given back false. -/
def mulCore {w : Nat} (x y : BitVec w) : IntResult w :=
  let es := x.toInt * y.toInt
  let res := BitVec.ofInt w es
  ⟨res, false, outOfRange w es, decide (es < 0), res == 0⟩

/-- `DivCore(n, num, den)` (R203); none for a zero denominator. The quotient truncates toward zero. -/
def divCore {w : Nat} (num den : BitVec w) : Option (IntResult w) :=
  if den.toInt = 0 then none
  else
    let q := num.toInt.tdiv den.toInt
    let res := BitVec.ofInt w q
    some ⟨res, false, outOfRange w q, decide (q < 0), res == 0⟩

/-- `RemCore(n, num, den)` (R203); none for a zero denominator. The remainder has the sign of the dividend. -/
def remCore {w : Nat} (num den : BitVec w) : Option (IntResult w) :=
  if den.toInt = 0 then none
  else
    let r := num.toInt.tmod den.toInt
    let res := BitVec.ofInt w r
    some ⟨res, false, false, decide (r < 0), res == 0⟩

/-- An integer result that writes all five flags and delivers Integer Overflow (R186). -/
def arithCalc {w : Nat} (p : PsReg) (r : IntResult w) : Calc w :=
  .done r.res (p.withArith r.c r.v r.n r.z) ⟨r.v, none⟩ 0

/-- An integer result that leaves C as it was (R202, R203). -/
def keepCCalc {w : Nat} (p : PsReg) (r : IntResult w) : Calc w :=
  .done r.res (p.withArith p.fC r.v r.n r.z) ⟨r.v, none⟩ 0

/-- The result of a division, or Integer Zero Divide with nothing stored and no flag changed (R203, R485). -/
def divCalc {w : Nat} (p : PsReg) (r : Option (IntResult w)) : Calc w :=
  match r with
  | some r => keepCCalc p r
  | none => .raise 4 p none

/-- A result stored with no flag changed: MOV (R206 to R208), MOVA (R389). -/
def moveCalc {w : Nat} (p : PsReg) (v : BitVec w) : Calc w := .done v p .none 0

/-- The flags of an integer compare (R227): C unsigned below, N signed below, Z equal, V and U cleared. -/
def compareFlags {w : Nat} (p : PsReg) (a b : BitVec w) : PsReg :=
  p.withArith (decide (a.toNat < b.toNat)) false (decide (a.toInt < b.toInt)) (a == b)

/-! ## Decimal -/

/-- ADCD (R242): two BCD digits, the formula applied to any nibbles. -/
def adcdCalc (p : PsReg) (a b : Byte) : Calc 8 :=
  let lo := a.toNat % 16 + b.toNat % 16 + p.fC.toNat
  let c1 := decide (9 < lo)
  let lo := if c1 then lo - 10 else lo
  let hi := a.toNat / 16 + b.toNat / 16 + c1.toNat
  let c2 := decide (9 < hi)
  let hi := if c2 then hi - 10 else hi
  let res : Byte := BitVec.ofNat 8 ((hi % 16) * 16 + lo % 16)
  .done res (p.withArith c2 false false (res == 0)) .none 0

/-- SBBD (R243): dsrc - src - borrow in two BCD digits. -/
def sbbdCalc (p : PsReg) (a b : Byte) : Calc 8 :=
  let lo : Int := (b.toNat % 16 : Nat) - (a.toNat % 16 : Nat) - (p.fC.toNat : Int)
  let b1 := decide (lo < 0)
  let lo := if b1 then lo + 10 else lo
  let hi : Int := (b.toNat / 16 : Nat) - (a.toNat / 16 : Nat) - (b1.toNat : Int)
  let b2 := decide (hi < 0)
  let hi := if b2 then hi + 10 else hi
  let res : Byte := BitVec.ofInt 8 ((hi % 16) * 16 + lo % 16)
  .done res (p.withArith b2 false false (res == 0)) .none 0

/-! ## Integer conversions -/

/-- CVBW and CVHW (R244, R245): the sign-extended value. -/
def widenCalc {v : Nat} (w : Nat) (p : PsReg) (a : BitVec v) : Calc w :=
  .done (a.signExtend w) (p.withArith p.fC false (decide (a.toInt < 0)) (a == 0)).clearFp .none 0

/-- CVWB and CVWH (R246, R247): the low bits, with Integer Overflow where the value does not fit. -/
def narrowCalc {v : Nat} (w : Nat) (p : PsReg) (a : BitVec v) : Calc w :=
  let res := a.setWidth w
  let ov := outOfRange w a.toInt
  .done res (p.withArith p.fC ov (decide (a.toInt < 0)) (res == 0)).clearFp ⟨ov, none⟩ 0

/-! ## Logic, shifts, find first one -/

/-- A logical result with `LogicFlags` (R260). -/
def logicCalc {w : Nat} (p : PsReg) (res : BitVec w) : Calc w :=
  .done res (p.withLogic res.msb (res == 0)) .none 0

/-- The flags of BIT (R274): `LogicFlags` of the AND. -/
def bitFlags {w : Nat} (p : PsReg) (a b : BitVec w) : PsReg := p.withLogic (a &&& b).msb ((a &&& b) == 0)

/-- `ShiftLeft(n, b, m)` with the last bit shifted out (R261). -/
def shiftLeft {w : Nat} (b : BitVec w) (m : Nat) : BitVec w × Bool :=
  (b <<< m, decide (m ≤ w) && b.getLsbD (w - m))

/-- `ShiftRightLogical(n, b, m)` with the last bit shifted out (R261). -/
def shiftRightLogical {w : Nat} (b : BitVec w) (m : Nat) : BitVec w × Bool :=
  (b >>> m, decide (m ≤ w) && b.getLsbD (m - 1))

/-- `ShiftRightArith(n, b, m)` with the last bit shifted out (R261). -/
def shiftRightArith {w : Nat} (b : BitVec w) (m : Nat) : BitVec w × Bool :=
  (b.sshiftRight m, if m ≤ w then b.getLsbD (m - 1) else b.msb)

/-- `RotateLeft(n, b, m)` with the last bit rotated round (R261). -/
def rotLeft {w : Nat} (b : BitVec w) (m : Nat) : BitVec w × Bool :=
  let res := b.rotateLeft (m % w)
  (res, res.getLsbD 0)

/-- `RotateRight(n, b, m)` with the last bit rotated round (R261). -/
def rotRight {w : Nat} (b : BitVec w) (m : Nat) : BitVec w × Bool :=
  let res := b.rotateRight (m % w)
  (res, res.msb)

/-- The value and carry of a shift with flags N, Z and V, U cleared (R277, R283). -/
def shiftCalc {w : Nat} (p : PsReg) (r : BitVec w × Bool) : Calc w :=
  .done r.1 (p.withArith r.2 false r.1.msb (r.1 == 0)) .none 0

/-- SFT (R277): left by a positive count, right by a negative one, C from bit 0 where the count is 0. -/
def sftCalc {w : Nat} (p : PsReg) (count : Byte) (b : BitVec w) : Calc w :=
  let k := count.toInt
  shiftCalc p
    (if k = 0 then (b, b.getLsbD 0)
     else if 0 < k then shiftLeft b k.toNat
     else shiftRightLogical b (-k).toNat)

/-- SFA (R280): V is set where a left shift loses the exact product, N is the sign of dsrc. -/
def sfaCalc {w : Nat} (p : PsReg) (count : Byte) (b : BitVec w) : Calc w :=
  let k := count.toInt
  let r :=
    if k = 0 then (b, b.getLsbD 0)
    else if 0 < k then shiftLeft b k.toNat
    else shiftRightArith b (-k).toNat
  let ov := decide (0 < k) && outOfRange w (b.toInt * 2 ^ k.toNat)
  .done r.1 (p.withArith r.2 ov (decide (b.toInt < 0)) (r.1 == 0)) ⟨ov, none⟩ 0

/-- ROT (R283): right by a positive count and left by a negative one, or the reverse (`ROT_DIRECTION`). -/
def rotCalc {w : Nat} (dir : RotDirection) (p : PsReg) (count : Byte) (b : BitVec w) : Calc w :=
  let k := match dir with
    | .positiveRight => count.toInt
    | .positiveLeft => -count.toInt
  shiftCalc p
    (if k = 0 then (b, b.getLsbD 0)
     else if 0 < k then rotRight b k.toNat
     else rotLeft b (-k).toNat)

/-- FFO (R286): the place of the lowest one bit of the source, or its width with Z set. -/
def ffoCalc {w : Nat} (p : PsReg) (a : BitVec w) : Calc 8 :=
  match (List.range w).find? (fun i => a.getLsbD i) with
  | some i => .done (BitVec.ofNat 8 i) (p.withLogic false false) .none 0
  | none => .done (BitVec.ofNat 8 w) (p.withLogic false true) .none 0

/-! ## Floating point -/

/-- What FR records of a real operand (R313). -/
def frOperand (f : Fmt) (x : Nat) : FrOperand := ⟨f.sign x, f.expo x == 0, f.frac x == 0, f.expo x == f.emax⟩

/-- The flags of a real result (R312): C and N where it is negative, Z where it is zero. -/
def PsReg.withReal (p : PsReg) (f : Fmt) (x : Nat) : PsReg :=
  p.withArith (f.isNeg x) false (f.isNeg x) (f.isZero x)

/-- Invalid Operation (R310): IN set, the other four exception flags and V, U cleared, nothing stored. -/
def invalidCalc {w : Nat} (p : PsReg) (first second : FrOperand) : Calc w :=
  .raise 9 ({ p with fV := false, fU := false }.withFp false false false false true)
    (some ⟨false, false, false, first, second⟩)

/-- Floating Zero Divide (R311): FZ set, the other four exception flags and V, U cleared, nothing stored. -/
def zeroDivideCalc {w : Nat} (p : PsReg) (first second : FrOperand) : Calc w :=
  .raise 7 ({ p with fV := false, fU := false }.withFp false false true false false)
    (some ⟨false, false, false, first, second⟩)

/-- The signal of a delivered result (R306): Underflow, else Overflow, else Inexact. -/
def fpSignal (ix uf ov : Bool) (fr : FrFields) : Option (FpKind × FrFields) :=
  if uf then some (.underflow, fr)
  else if ov then some (.overflow, fr)
  else if ix then some (.inexact, fr)
  else none

/-- The end of a floating-point operation that stores a real of type `t` (R306, R312): `free` is stored where the
source defines no value (U9), and the flags that follow from the result are computed from what is stored. -/
def fpCalc (t : OpType) (p : PsReg) (free : BitVec t.bits) (first second : FrOperand) (o : FpOut) : Calc t.bits :=
  match o with
  | .invalid => invalidCalc p first second
  | .zeroDivide => zeroDivideCalc p first second
  | .store x ix uf ov guard rest up =>
    let v := match x with
      | some x => BitVec.ofNat t.bits x
      | none => free
    .done v ((p.withReal (fmtOf t) v.toNat).withFp ix uf false ov false)
      ⟨false, fpSignal ix uf ov ⟨up, rest, guard, first, second⟩⟩ (if x.isSome then 0 else 1)

/-- A two-operand operation (R314): `op` is applied to the values of src and dsrc. -/
def fpBinary (t : OpType) (cfg : Params) (p : PsReg) (free : BitVec t.bits)
    (op : Fmt → Nat → BitVec 2 → FVal → FVal → FpOut) (a b : BitVec t.bits) : Calc t.bits :=
  let f := fmtOf t
  fpCalc t p free (frOperand f a.toNat) (frOperand f b.toNat)
    (op f (f.wrap cfg) p.rc (f.value a.toNat) (f.value b.toNat))

/-- NEG (R322): the sign inverted; Invalid on a NaN. -/
def negCalc (t : OpType) (p : PsReg) (a : BitVec t.bits) : Calc t.bits :=
  let f := fmtOf t
  fpCalc t p 0 (frOperand f a.toNat) .unused
    (if f.isNan a.toNat then .invalid else .exact (f.withSign (!f.sign a.toNat) a.toNat))

/-- SGN (R324): dsrc with the sign of src; Invalid on a NaN. -/
def sgnCalc (t : OpType) (p : PsReg) (a b : BitVec t.bits) : Calc t.bits :=
  let f := fmtOf t
  fpCalc t p 0 (frOperand f a.toNat) (frOperand f b.toNat)
    (if f.isNan a.toNat || f.isNan b.toNat then .invalid else .exact (f.withSign (f.sign a.toNat) b.toNat))

/-- SQT (R342). -/
def sqtCalc (t : OpType) (p : PsReg) (a : BitVec t.bits) : Calc t.bits :=
  let f := fmtOf t
  fpCalc t p 0 (frOperand f a.toNat) .unused (f.sqrt p.rc (f.value a.toNat))

/-- The flags of REM (R340): C and N from the exact remainder `x`, Z where its magnitude is below that of src. -/
def remFlags (p : PsReg) (x src : FVal) (uf : Bool) : PsReg :=
  let mag (v : FVal) : FVal := match v with
    | .nan => .nan
    | .inf _ => .inf false
    | .fin _ m e => .fin false m e
  let neg := x.lt (.fin false 0 0)
  (p.withArith neg false neg ((mag x).lt (mag src))).withFp false uf false false false

/-- REM (R340): dsrc REM src. -/
def remCalc (t : OpType) (cfg : Params) (p : PsReg) (free : BitVec t.bits) (a b : BitVec t.bits) : Calc t.bits :=
  let f := fmtOf t
  let src := f.value a.toNat
  let dsrc := f.value b.toNat
  match fpCalc t p free (frOperand f a.toNat) (frOperand f b.toNat) (f.rem (f.wrap cfg) p.rc dsrc src), remValue dsrc src with
  | .done v ps sig draws, some x => .done v (remFlags p x src ps.fUF) sig draws
  | c, _ => c

/-- The flags of a real compare (R334): U alone where an operand is a NaN. -/
def compareRealFlags (t : OpType) (p : PsReg) (a b : BitVec t.bits) : PsReg :=
  let f := fmtOf t
  let q :=
    if f.isNan a.toNat || f.isNan b.toNat then
      { p with fU := true, fC := false, fN := false, fZ := false, fV := false }
    else
      let x := f.value a.toNat
      let y := f.value b.toNat
      p.withArith (x.lt y) false (x.lt y) (x.eq y)
  q.clearFp

/-- CVBR, CVHR, CVWR, CVBL, CVHL, CVWL (R344 to R346, R348 to R350): a whole number to a real. FR records its sign bit
(R33, R313); a whole number has no exponent and no fraction, so that the three fields about them are unused and 0
(R313). -/
def intToRealCalc (t : OpType) (p : PsReg) {w : Nat} (a : BitVec w) : Calc t.bits :=
  fpCalc t p 0 { FrOperand.unused with sign := a.msb } .unused ((fmtOf t).ofInt p.rc a.toInt)

/-- CVLR and CVRL (R347, R351): a real of one format to the other. -/
def realToRealCalc (ts td : OpType) (cfg : Params) (p : PsReg) (free : BitVec td.bits) (a : BitVec ts.bits) :
    Calc td.bits :=
  fpCalc td p free (frOperand (fmtOf ts) a.toNat) .unused
    ((fmtOf td).deliverValue ((fmtOf td).wrap cfg) p.rc ((fmtOf ts).value a.toNat))

/-- CVRW and CVLW (R352, R353): rounded by RC to a Word; an infinite operand gives a free Word (U11). -/
def realToWordCalc (ts : OpType) (p : PsReg) (free : Word) (a : BitVec ts.bits) : Calc 32 :=
  let f := fmtOf ts
  let first := frOperand f a.toNat
  match f.value a.toNat with
  | .nan => invalidCalc p first .unused
  | .inf s => .done free (p.withArith p.fC true s (free == 0)).clearFp ⟨true, none⟩ 1
  | .fin s m e =>
    let r := roundToInt p.rc s m e
    let ix := r.guard || r.rest
    let ov := outOfRange 32 r.value
    let res := BitVec.ofInt 32 r.value
    .done res ((p.withArith p.fC ov (decide (r.value < 0)) (res == 0)).withFp ix false false false false)
      ⟨ov, fpSignal ix false false ⟨r.up, r.rest, r.guard, first, .unused⟩⟩ 0

end Sys2Proof.Machine
end

