-- ==== Sys2Proof/Machine/Cycle.lean ====
section
/-! DEFINITION. The instruction cycle around an instruction's own effect (40_operands.md R150): the shapes of
instructions by what they do with their references, the repeat (44_control.md R401 to R404), and the selection of at
most one interrupt at the end (60_exceptions.md R497, R498). -/

namespace Sys2Proof.Machine

open Sys2Proof

/-- What an instruction that ran to its end tells the cycle. -/
structure Done where
  /-- where pc goes (R150 step 6) -/
  next : Word
  /-- a control transfer was taken (R100) -/
  jumped : Bool
  /-- it wrote SP, so Stack Overflow is checked (R493) -/
  wroteSp : Bool
  /-- what it signals after storing its result -/
  sig : Signal
  /-- it was TRAP or BKPT, whose entry has replaced PS (R498 item 3) -/
  entered : Bool
  /-- the repeat post-step applies to it (R402, R404) -/
  post : Bool
  deriving DecidableEq, Repr

/-- The end of an ordinary instruction that goes on at `next`. -/
def Done.plain (next : Word) (wroteSp : Bool) : Done := ⟨next, false, wroteSp, .none, false, true⟩

/-- The end of an instruction that transfers control to `target`. -/
def Done.jump (target : Word) (wroteSp : Bool) : Done := ⟨target, true, wroteSp, .none, false, true⟩

/-! ## Instruction shapes -/

/-- Stack mode moves SP where it is REFERENCE 1 (R176). -/
def popsStack (src : Ref) : Bool := src == .stk

/-- The address after the mode specifier of REFERENCE 1. -/
def afterSpec1 (pc0 : Word) : Word := pc0 + 2

/-- The address after the mode specifier of REFERENCE 2, REFERENCE 1 being `src`. -/
def afterSpec2 (pc0 : Word) (k : RefKind) (src : Ref) : Word := pc0 + 2 + BitVec.ofNat 32 (src.length k)

/-- The evaluation of REFERENCE 2, REFERENCE 1 being `src` and `sp0` the value of SP at the start of the instruction
(R150 step 4). Its bytes are fetched only now: where an agent has written one of them while REFERENCE 1 was evaluated,
the fetch is refused (20_memory.md R100 (b)). -/
def evalSecond (role : Role) (k₁ k₂ : RefKind) (sp0 : Word) (src des : Ref) (s : State) : Flow Loc :=
  match s.staleIn (s.pc.toNat + 1 + src.length k₁) (des.length k₂) with
  | some a => .refuse (.staleFetch a)
  | none => evalRef role k₂.len sp0 (afterSpec2 s.pc k₁ src) des s

/-- Both references of an instruction evaluated in order (R151): the locations of src and des. -/
def evalBoth (ts td : OpType) (role : Role) (src des : Ref) (s : State) : Flow (Loc × Loc) :=
  (evalRef .src ts.len s.sp (afterSpec1 s.pc) src s).bind fun l₁ s₁ =>
    (evalSecond role (.value ts) (.value td) s.sp src des s₁).bind fun l₂ s₂ => .ok (l₁, l₂) s₂

/-- FR receives its fields, the reserved bits being free (R34, U7). -/
def State.setFr (s : State) (f : FrFields) : State := { s with fr := f.toWord (s.freeNext 21) }.drew 1

/-- The end of a computation (R150 step 5): the result is stored at `l` and PS written, or the exception that
suppresses the result is raised with `pc0` pushed, PS and FR written first (R310, R313, R483). -/
def settle (td : OpType) (l : Loc) (d : Done) (c : Calc td.bits) (s : State) : Flow Done :=
  match c with
  | .done v ps sig draws =>
    (writeLoc td l v (s.drew draws)).bind fun _ s => .ok { d with sig := sig } { s with ps := ps }
  | .raise n ps fr =>
    let s := { s with ps := ps }
    match fr with
    | some f => .trap n s.pc (s.setFr f)
    | none => .trap n s.pc s

/-- An instruction that reads src and dsrc and stores through des (R176 second case). -/
def modifyBody (ts td : OpType) (op : BitVec ts.bits → BitVec td.bits → Calc td.bits) (src des : Ref) (next : Word)
    (s : State) : Flow Done :=
  (evalBoth ts td .modify src des s).bind fun l s =>
    (readLoc ts l.1 s).bind fun a s =>
      (readLoc td l.2 s).bind fun b s =>
        settle td l.2 (Done.plain next (popsStack src)) (op a b) s

/-- An instruction that reads src and only writes des (R176 third case). -/
def writeBody (ts td : OpType) (op : BitVec ts.bits → Calc td.bits) (src des : Ref) (next : Word) (s : State) :
    Flow Done :=
  (evalBoth ts td .write src des s).bind fun l s =>
    (readLoc ts l.1 s).bind fun a s =>
      settle td l.2 (Done.plain next (popsStack src || popsStack des)) (op a) s

/-- An instruction that reads both references and acts on the state (R176 fourth case). -/
def lookBody (ts td : OpType) (act : BitVec ts.bits → BitVec td.bits → Done → State → Flow Done) (src des : Ref)
    (next : Word) (s : State) : Flow Done :=
  (evalBoth ts td .look src des s).bind fun l s =>
    (readLoc ts l.1 s).bind fun a s =>
      (readLoc td l.2 s).bind fun b s => act a b (Done.plain next (popsStack src)) s

/-- CMP and BIT: only the flags are written. -/
def flagsBody (t : OpType) (flags : BitVec t.bits → BitVec t.bits → PsReg) (src des : Ref) (next : Word) (s : State) :
    Flow Done :=
  lookBody t t (fun a b d s => .ok d { s with ps := flags a b }) src des next s

/-- A one-reference instruction that reads its operand (TRAP, RETP). -/
def readBody (t : OpType) (act : BitVec t.bits → State → Flow Done) (src : Ref) (s : State) : Flow Done :=
  (evalRef .src t.len s.sp (afterSpec1 s.pc) src s).bind fun l s => (readLoc t l s).bind act

/-- An instruction without references that only changes the state. -/
def simpleBody (act : State → State) (next : Word) (s : State) : Flow Done := .ok (Done.plain next false) (act s)

/-! ## Selecting an interrupt -/

/-- The exception of a completed instruction, in the order 12, 6, 8, 3, 5 (R498 item 2), with what FR receives. -/
def completion (d : Done) (s : State) : Option (Nat × Option FrFields) :=
  if d.wroteSp && decide (s.sp.toNat < 2048) then some (12, none)
  else
    match d.sig.fp with
    | some (.underflow, f) => some (6, some f)
    | some (.overflow, f) => some (8, some f)
    | some (.inexact, f) =>
      if d.sig.integerOverflow && s.ps.eIV && s.ps.eIE then some (3, none)
      else if s.ps.eIIX && s.ps.eIE then some (5, some f)
      else none
    | none => if d.sig.integerOverflow && s.ps.eIV && s.ps.eIE then some (3, none) else none

/-- Output Ready of channel `i` is present and enabled (R463, R497). -/
def outputReady (s : State) (i : Fin 11) : Bool :=
  (s.outPort i).ready && portFlag s.cfg s.oe i && s.ps.eIO && s.ps.eIE

/-- Input Ready of channel `i` is present and enabled (R463, R497). -/
def inputReady (s : State) (i : Fin 11) : Bool :=
  let p := s.inPort i
  p.ready && !(p.perr || p.ovr) && portFlag s.cfg s.ie i && s.ps.eII && s.ps.eIE

/-- Input Error of channel `i` is present and enabled (R463, R497). -/
def inputError (s : State) (i : Fin 11) : Bool :=
  let p := s.inPort i
  p.ready && (p.perr || p.ovr) && portFlag s.cfg s.ie i && s.ps.eII && s.ps.eIE

/-- The interrupt number of channel `i` in a range that starts at `base`: the host channel is 31 above it (R496). -/
def portInterrupt (base : Nat) (i : Fin 11) : Nat := if i = 10 then base + 31 else base + i.val

/-- The asynchronous conditions by rising interrupt number, each with whether it is present and enabled (R497,
R498 item 5). -/
def asyncConditions (s : State) : List (Nat × Bool) :=
  [(13, s.tr == 0 && s.ps.eTO && s.ps.eIE), (14, s.ceLatch && s.ps.eCE && s.ps.eIE)] ++
    (List.finRange 11).map (fun i => (portInterrupt 32 i, outputReady s i)) ++
    (List.finRange 11).map (fun i => (portInterrupt 64 i, inputReady s i)) ++
    (List.finRange 11).map (fun i => (portInterrupt 96 i, inputError s i))

/-- The lowest-numbered asynchronous condition that may be taken (R498 item 5). -/
def asyncNumber (s : State) : Option Nat := ((asyncConditions s).find? (fun c => c.2)).map Prod.fst

/-- An uncorrectable error, else an asynchronous condition, else no interrupt (R498 items 4 and 5). Taking 14 ends its
condition (R495). -/
def takeAsync (s : State) : Host.Outcome State Fault Refusal :=
  match s.ueLatch with
  | some (a, n) => entryOutcome 15 (enterUncorrectable a n s)
  | none =>
    match asyncNumber s with
    | some n => entryOutcome n (enter n s.pc (if n = 14 then { s with ceLatch := false } else s))
    | none => .next s

/-- What is taken at the end of a step that ran or skipped the instruction at `pc0` (R498 items 2 to 5, R502, R505).
Trace follows an instruction at whose end T is set, RETI itself too: R505 says both that a RETI that sets T is followed
at once by trace and that a trace handler returning by RETI lets exactly one more instruction run, which its own first
sentence and R498 item 3 do not allow; the model follows R498 item 3 (log 36, DEDUCED). -/
def boundary (d : Done) (pc0 : Word) (s : State) : Host.Outcome State Fault Refusal :=
  match completion d s with
  | some (n, some f) => entryOutcome n (enter n pc0 (s.setFr f))
  | some (n, none) => entryOutcome n (enter n pc0 s)
  | none => if s.ps.eT && !d.entered then entryOutcome 1 (enter 1 s.pc s) else takeAsync s

/-- The end of a step: the agents' last turn within it, and the selection. -/
def select (d : Done) (pc0 : Word) (s : State) : Host.Outcome State Fault Refusal :=
  match letAgents s with
  | .next t => boundary d pc0 t
  | .fault f => .fault f
  | .refused r => .refused r

/-! ## The cycle -/

/-- `next`, some bytes after `pc0` modulo 2^32, is past 2^32 - 1 (R24). -/
def wraps (pc0 next : Word) : Bool := decide (next.toNat < pc0.toNat)

/-- `R[r] <- R[r] - 1` (R402, R403). -/
def State.countDown (s : State) (r : Fin 16) : State := s.setReg r (s.reg r - 1)

/-- pc and the instruction buffer after an instruction that ran to its end (R150 step 6, R100). Where it made no transfer of
control and pc has wrapped, the next instruction would stand at 2^32 (R24). TRAP and BKPT were noted before their entry. -/
def State.advance (s : State) (d : Done) (pc0 : Word) : State :=
  let past := !d.jumped && !d.entered && wraps pc0 d.next
  let s := { s with pc := d.next, pastEnd := past }
  if d.entered then s
  else if d.jumped then (s.noteExecuted pc0).noteTransfer pc0 d.next
  else s.noteExecuted pc0

/-- The repeat post-step (R402): the count goes down and the instruction is next again. -/
def State.postStep (s : State) (rep : Option (Fin 16)) (d : Done) (pc0 : Word) : State :=
  match rep with
  | some r => if d.post then { s.countDown r with pc := pc0, pastEnd := false } else s
  | none => s

/-- Steps 6 and 7 of the cycle (R150), `rep` being the count register where a repeat is in effect. An exception that
ended the instruction early is taken here (R498 item 1). -/
def finish (rep : Option (Fin 16)) (pc0 : Word) (x : Flow Done) : Host.Outcome State Fault Refusal :=
  match x with
  | .ok d s => select d pc0 ((s.advance d pc0).postStep rep d pc0)
  | .trap n a s => entryOutcome n (enter n a (s.noteExecuted pc0))
  | .fault f => .fault f
  | .refuse r => .refused r

/-- `PS.REP <- 00`. -/
def State.clearRep (s : State) : State := { s with ps := { s.ps with rep := 0 } }

/-- The Z condition of REPZ and REPNZ ends the repeat (R401 step 1). -/
def zFails (s : State) : Bool := (s.ps.rep == 2 && !s.ps.fZ) || (s.ps.rep == 3 && s.ps.fZ)

/-- The repeat ends before the instruction: by the Z condition, or because the count is zero (R401 steps 1 and 2). -/
def repeatEnds (s : State) : Bool := zFails s || s.reg s.ps.repIndex == 0

/-- Finding `pcnext` of an instruction without performing its references (R401): a specifier that is an Operand Error
where it is decoded, whatever the reference would have done, raises 16 (R123, R119, R181, R400, R499), and bytes that are
not there end it as they do elsewhere. That a skipped instruction raises them too is the model's choice (log 16, DESIGN
CHOICE). `after` is the address after the next specifier byte. -/
def passOver (refs : List (RefKind × Ref)) (after : Word) (s : State) : Flow Unit :=
  match refs with
  | [] => .ok () s
  | (k, r) :: rest =>
    match r with
    | .missing _ => missingBytes s
    | _ =>
      if !r.allowed k then operandError after s
      else passOver rest (after + BitVec.ofNat 32 (r.length k)) s

/-- An instruction skipped by the repeat pre-check (R401, R403): `PS.REP <- 00; pc <- pcnext`. -/
def skip (i : Instr) (next : Word) (s : State) : Host.Outcome State Fault Refusal :=
  finish none s.pc
    ((passOver i.parts.refs (afterSpec1 s.pc) s).bind fun _ s => .ok (Done.plain next false) s.clearRep)

/-- The address of the byte after the instruction (R11). -/
def pcNext (i : Instr) (s : State) : Word := s.pc + BitVec.ofNat 32 i.length

/-- Executing an instruction other than a branch, CALL or return (R150, R401, R402, R404). -/
def runPlain (i : Instr) (body : Word → State → Flow Done) (s : State) : Host.Outcome State Fault Refusal :=
  if s.ps.rep = 0 then finish none s.pc (body (pcNext i s) s)
  else if repeatEnds s then skip i (pcNext i s) s
  else if namesRegister s.ps.repIndex i then .refused .repeatCountUsed
  else finish (some s.ps.repIndex) s.pc (body (pcNext i s) s)

/-- Executing JMP, a conditional branch, CALL, RET or RETP (R403). `body` is given `pcnext` and the return address of
a CALL, which under a repeat is that of the two-byte REP instruction before it. One that the repeat skips performs no
side effect of its reference: the test comes first by R150 and R403, while R386 prints the target's evaluation above the
line that applies R403 (log 38, DEDUCED). -/
def runBranch (i : Instr) (body : Word → Word → State → Flow Done) (s : State) : Host.Outcome State Fault Refusal :=
  let next := pcNext i s
  if s.ps.rep = 0 then finish none s.pc (body next next s)
  else
    match s.cfg.repBranch with
    | .testThenDecrement =>
      if repeatEnds s then skip i next s
      else if namesRegister s.ps.repIndex i then .refused .repeatCountUsed
      else finish none s.pc (body next (s.pc - 2) (s.countDown s.ps.repIndex).clearRep)
    | .decrementThenTest =>
      let t := s.countDown s.ps.repIndex
      if repeatEnds t then skip i next t
      else if namesRegister s.ps.repIndex i then .refused .repeatCountUsed
      else finish none s.pc (body next (s.pc - 2) t.clearRep)

end Sys2Proof.Machine
end

