-- ==== Sys2Proof/Machine/Control.lean ====
section
/-! DEFINITION. Branch, call, return, move-address and repeat instructions (44_control.md). -/

namespace Sys2Proof.Machine

open Sys2Proof

/-- A branch (R370 to R372, R390, R391): the target is always evaluated; a signed branch with U set raises Invalid
with IN set and pc unchanged; otherwise control passes to the target where the condition holds. -/
def branchBody (signed : Bool) (taken : PsReg → Bool) (src : Ref) (next : Word) (s : State) : Flow Done :=
  (evalTarget s.sp (afterSpec1 s.pc) src s).bind fun t s =>
    if signed && s.ps.fU then .trap 9 s.pc { s with ps := { s.ps with fIN := true } }
    else if taken s.ps then .ok (Done.jump t false) s
    else .ok (Done.plain next false) s

/-- CALL's own effect (R386): the target is found before the push of the return address. -/
def callBody (src : Ref) (ret : Word) (s : State) : Flow Done :=
  (evalTarget s.sp (afterSpec1 s.pc) src s).bind fun t s =>
    (push4 ret s).bind fun _ s => .ok (Done.jump t true) s.clearRep

/-- RET's own effect (R387). -/
def retBody (s : State) : Flow Done :=
  (pop4 s).bind fun t s => .ok (Done.jump t true) s.clearRep

/-- RETP's own effect (R388): the operand is read first and added to SP after the pop. -/
def retpBody (src : Ref) (s : State) : Flow Done :=
  readBody .w (fun (k : Word) s => (pop4 s).bind fun t s => .ok (Done.jump t true) { s with sp := s.sp + k }.clearRep) src s

/-- MOVA's own effect (R389): the address itself is the value. -/
def movaBody (src des : Ref) (next : Word) (s : State) : Flow Done :=
  (evalTarget s.sp (afterSpec1 s.pc) src s).bind fun v s₁ =>
    (evalSecond .write .addr (.value .w) s.sp src des s₁).bind fun l s₂ =>
      settle .w l (Done.plain next (popsStack des)) (moveCalc s.ps v) s₂

/-- The end of an instruction that no repeat post-step follows (R404). -/
def Done.final (next : Word) : Done := { Done.plain next false with post := false }

/-- REP, REPZ and REPNZ (R400, R405, R406): PS.REP and PS.REPREG are set; any mode but Register Direct is an Operand
Error with PS unchanged. -/
def repBody (mode : BitVec 2) (src : Ref) (next : Word) (s : State) : Flow Done :=
  match src with
  | .reg n => .ok (Done.final next) { s with ps := { s.ps with rep := mode, repReg := BitVec.ofNat 4 n.val } }
  | .missing _ => missingBytes s
  | _ => operandError (afterSpec1 s.pc) s

/-- JMP (R373, R371): always taken. -/
def execJmp (src : Ref) (s : State) : Host.Outcome State Fault Refusal :=
  runBranch (.jmp src) (fun next _ s => branchBody false (fun _ => true) src next s) s

/-- BV (R374, R371): taken when V = 1. -/
def execBv (src : Ref) (s : State) : Host.Outcome State Fault Refusal :=
  runBranch (.bv src) (fun next _ s => branchBody false (fun p => p.fV) src next s) s

/-- BNV (R375, R371): taken when V = 0. -/
def execBnv (src : Ref) (s : State) : Host.Outcome State Fault Refusal :=
  runBranch (.bnv src) (fun next _ s => branchBody false (fun p => !p.fV) src next s) s

/-- BE (R376, R371): taken when Z = 1. -/
def execBe (src : Ref) (s : State) : Host.Outcome State Fault Refusal :=
  runBranch (.be src) (fun next _ s => branchBody false (fun p => p.fZ) src next s) s

/-- BNE (R377, R371): taken when Z = 0. -/
def execBne (src : Ref) (s : State) : Host.Outcome State Fault Refusal :=
  runBranch (.bne src) (fun next _ s => branchBody false (fun p => !p.fZ) src next s) s

/-- BG (R378, R371): taken when (N or Z) = 0; signed. -/
def execBg (src : Ref) (s : State) : Host.Outcome State Fault Refusal :=
  runBranch (.bg src) (fun next _ s => branchBody true (fun p => !(p.fN || p.fZ)) src next s) s

/-- BGE (R379, R371): taken when N = 0; signed. -/
def execBge (src : Ref) (s : State) : Host.Outcome State Fault Refusal :=
  runBranch (.bge src) (fun next _ s => branchBody true (fun p => !p.fN) src next s) s

/-- BL (R380, R371): taken when N = 1; signed. -/
def execBl (src : Ref) (s : State) : Host.Outcome State Fault Refusal :=
  runBranch (.bl src) (fun next _ s => branchBody true (fun p => p.fN) src next s) s

/-- BLE (R381, R371): taken when (N or Z) = 1; signed. -/
def execBle (src : Ref) (s : State) : Host.Outcome State Fault Refusal :=
  runBranch (.ble src) (fun next _ s => branchBody true (fun p => p.fN || p.fZ) src next s) s

/-- BGU (R382, R371): taken when (C or Z) = 0 or U = 1. -/
def execBgu (src : Ref) (s : State) : Host.Outcome State Fault Refusal :=
  runBranch (.bgu src) (fun next _ s => branchBody false (fun p => !(p.fC || p.fZ) || p.fU) src next s) s

/-- BGEU (R383, R371): taken when C = 0 or U = 1. -/
def execBgeu (src : Ref) (s : State) : Host.Outcome State Fault Refusal :=
  runBranch (.bgeu src) (fun next _ s => branchBody false (fun p => !p.fC || p.fU) src next s) s

/-- BLU (R384, R371): taken when C = 1 or U = 1. -/
def execBlu (src : Ref) (s : State) : Host.Outcome State Fault Refusal :=
  runBranch (.blu src) (fun next _ s => branchBody false (fun p => p.fC || p.fU) src next s) s

/-- BLEU (R385, R371): taken when (C or Z) = 1 or U = 1. -/
def execBleu (src : Ref) (s : State) : Host.Outcome State Fault Refusal :=
  runBranch (.bleu src) (fun next _ s => branchBody false (fun p => (p.fC || p.fZ) || p.fU) src next s) s

/-- CALL (R386): the return address is pushed and control passes to the target. -/
def execCall (src : Ref) (s : State) : Host.Outcome State Fault Refusal :=
  runBranch (.call src)
    (fun _ ret s => callBody src ret s) s

/-- RET (R387): pc is popped. -/
def execRet (s : State) : Host.Outcome State Fault Refusal :=
  runBranch .ret
    (fun _ _ s => retBody s) s

/-- RETP (R388): pc is popped and the Word src is added to SP. -/
def execRetp (src : Ref) (s : State) : Host.Outcome State Fault Refusal :=
  runBranch (.retp src)
    (fun _ _ s => retpBody src s) s

/-- MOVA (R389): the address src names -> des; no flag changes. -/
def execMova (src des : Ref) (s : State) : Host.Outcome State Fault Refusal :=
  runPlain (.mova src des)
    (movaBody src des) s

/-- REP (R400): repeat while the count is not zero. -/
def execRep (src : Ref) (s : State) : Host.Outcome State Fault Refusal :=
  runPlain (.rep src)
    (repBody 1 src) s

/-- REPZ (R405): repeat while the count is not zero and Z = 1. -/
def execRepz (src : Ref) (s : State) : Host.Outcome State Fault Refusal :=
  runPlain (.repz src)
    (repBody 2 src) s

/-- REPNZ (R406): repeat while the count is not zero and Z = 0. -/
def execRepnz (src : Ref) (s : State) : Host.Outcome State Fault Refusal :=
  runPlain (.repnz src)
    (repBody 3 src) s

end Sys2Proof.Machine
end

