-- ==== Sys2Proof/Machine/Floating.lean ====
section
/-! DEFINITION. Floating-point instructions (43_float.md). -/

namespace Sys2Proof.Machine

open Sys2Proof

/-- MOVR (R320): the bits of src -> des, uninterpreted; no flag changes. -/
def execMovr (src des : Ref) (s : State) : Host.Outcome State Fault Refusal :=
  runPlain (.movr src des)
    (writeBody .r .r (moveCalc s.ps) src des) s

/-- MOVL (R321): the bits of src -> des, uninterpreted; no flag changes. -/
def execMovl (src des : Ref) (s : State) : Host.Outcome State Fault Refusal :=
  runPlain (.movl src des)
    (writeBody .l .l (moveCalc s.ps) src des) s

/-- NEGR (R322): src with its sign inverted -> des; Invalid on a NaN. -/
def execNegr (src des : Ref) (s : State) : Host.Outcome State Fault Refusal :=
  runPlain (.negr src des)
    (writeBody .r .r (negCalc .r s.ps) src des) s

/-- NEGL (R323): src with its sign inverted -> des; Invalid on a NaN. -/
def execNegl (src des : Ref) (s : State) : Host.Outcome State Fault Refusal :=
  runPlain (.negl src des)
    (writeBody .l .l (negCalc .l s.ps) src des) s

/-- SGNR (R324): dsrc with the sign of src -> des; Invalid on a NaN. -/
def execSgnr (src des : Ref) (s : State) : Host.Outcome State Fault Refusal :=
  runPlain (.sgnr src des)
    (modifyBody .r .r (sgnCalc .r s.ps) src des) s

/-- SGNL (R325): dsrc with the sign of src -> des; Invalid on a NaN. -/
def execSgnl (src des : Ref) (s : State) : Host.Outcome State Fault Refusal :=
  runPlain (.sgnl src des)
    (modifyBody .l .l (sgnCalc .l s.ps) src des) s

/-- ADDR (R326): src + dsrc -> des. -/
def execAddr (src des : Ref) (s : State) : Host.Outcome State Fault Refusal :=
  runPlain (.addr src des)
    (modifyBody .r .r
      (fpBinary .r s.cfg s.ps (s.freeNext (OpType.bits .r)) (fun f w rc x y => f.add w rc x y)) src des) s

/-- ADDL (R327): src + dsrc -> des. -/
def execAddl (src des : Ref) (s : State) : Host.Outcome State Fault Refusal :=
  runPlain (.addl src des)
    (modifyBody .l .l
      (fpBinary .l s.cfg s.ps (s.freeNext (OpType.bits .l)) (fun f w rc x y => f.add w rc x y)) src des) s

/-- SUBR (R328): dsrc - src -> des. -/
def execSubr (src des : Ref) (s : State) : Host.Outcome State Fault Refusal :=
  runPlain (.subr src des)
    (modifyBody .r .r
      (fpBinary .r s.cfg s.ps (s.freeNext (OpType.bits .r)) (fun f w rc x y => f.add w rc y x.neg)) src des) s

/-- SUBL (R329): dsrc - src -> des. -/
def execSubl (src des : Ref) (s : State) : Host.Outcome State Fault Refusal :=
  runPlain (.subl src des)
    (modifyBody .l .l
      (fpBinary .l s.cfg s.ps (s.freeNext (OpType.bits .l)) (fun f w rc x y => f.add w rc y x.neg)) src des) s

/-- SBRR (R330): src - dsrc -> des. -/
def execSbrr (src des : Ref) (s : State) : Host.Outcome State Fault Refusal :=
  runPlain (.sbrr src des)
    (modifyBody .r .r
      (fpBinary .r s.cfg s.ps (s.freeNext (OpType.bits .r)) (fun f w rc x y => f.add w rc x y.neg)) src des) s

/-- SBRL (R331): src - dsrc -> des. -/
def execSbrl (src des : Ref) (s : State) : Host.Outcome State Fault Refusal :=
  runPlain (.sbrl src des)
    (modifyBody .l .l
      (fpBinary .l s.cfg s.ps (s.freeNext (OpType.bits .l)) (fun f w rc x y => f.add w rc x y.neg)) src des) s

/-- MULR (R332): src * dsrc -> des. -/
def execMulr (src des : Ref) (s : State) : Host.Outcome State Fault Refusal :=
  runPlain (.mulr src des)
    (modifyBody .r .r
      (fpBinary .r s.cfg s.ps (s.freeNext (OpType.bits .r)) (fun f w rc x y => f.mul w rc x y)) src des) s

/-- MULL (R333): src * dsrc -> des. -/
def execMull (src des : Ref) (s : State) : Host.Outcome State Fault Refusal :=
  runPlain (.mull src des)
    (modifyBody .l .l
      (fpBinary .l s.cfg s.ps (s.freeNext (OpType.bits .l)) (fun f w rc x y => f.mul w rc x y)) src des) s

/-- DIVR (R336): dsrc / src -> des. -/
def execDivr (src des : Ref) (s : State) : Host.Outcome State Fault Refusal :=
  runPlain (.divr src des)
    (modifyBody .r .r
      (fpBinary .r s.cfg s.ps (s.freeNext (OpType.bits .r)) (fun f w rc x y => f.div w rc y x)) src des) s

/-- DIVL (R337): dsrc / src -> des. -/
def execDivl (src des : Ref) (s : State) : Host.Outcome State Fault Refusal :=
  runPlain (.divl src des)
    (modifyBody .l .l
      (fpBinary .l s.cfg s.ps (s.freeNext (OpType.bits .l)) (fun f w rc x y => f.div w rc y x)) src des) s

/-- DVRR (R338): src / dsrc -> des. -/
def execDvrr (src des : Ref) (s : State) : Host.Outcome State Fault Refusal :=
  runPlain (.dvrr src des)
    (modifyBody .r .r
      (fpBinary .r s.cfg s.ps (s.freeNext (OpType.bits .r)) (fun f w rc x y => f.div w rc x y)) src des) s

/-- DVRL (R339): src / dsrc -> des. -/
def execDvrl (src des : Ref) (s : State) : Host.Outcome State Fault Refusal :=
  runPlain (.dvrl src des)
    (modifyBody .l .l
      (fpBinary .l s.cfg s.ps (s.freeNext (OpType.bits .l)) (fun f w rc x y => f.div w rc x y)) src des) s

/-- CMPR (R334): the flags of the numerical comparison; U where an operand is a NaN; nothing is stored. -/
def execCmpr (src des : Ref) (s : State) : Host.Outcome State Fault Refusal :=
  runPlain (.cmpr src des)
    (flagsBody .r (compareRealFlags .r s.ps) src des) s

/-- CMPL (R335): the flags of the numerical comparison; U where an operand is a NaN; nothing is stored. -/
def execCmpl (src des : Ref) (s : State) : Host.Outcome State Fault Refusal :=
  runPlain (.cmpl src des)
    (flagsBody .l (compareRealFlags .l s.ps) src des) s

/-- REMR (R340): dsrc REM src -> des, fully reduced; Z tells that it is. -/
def execRemr (src des : Ref) (s : State) : Host.Outcome State Fault Refusal :=
  runPlain (.remr src des)
    (modifyBody .r .r (remCalc .r s.cfg s.ps (s.freeNext (OpType.bits .r))) src des) s

/-- REML (R341): dsrc REM src -> des, fully reduced; Z tells that it is. -/
def execReml (src des : Ref) (s : State) : Host.Outcome State Fault Refusal :=
  runPlain (.reml src des)
    (modifyBody .l .l (remCalc .l s.cfg s.ps (s.freeNext (OpType.bits .l))) src des) s

/-- SQTR (R342): the square root of src -> des, correctly rounded. -/
def execSqtr (src des : Ref) (s : State) : Host.Outcome State Fault Refusal :=
  runPlain (.sqtr src des)
    (writeBody .r .r (sqtCalc .r s.ps) src des) s

/-- SQTL (R343): the square root of src -> des, correctly rounded. -/
def execSqtl (src des : Ref) (s : State) : Host.Outcome State Fault Refusal :=
  runPlain (.sqtl src des)
    (writeBody .l .l (sqtCalc .l s.ps) src des) s

/-- CVBR (R344): a Byte to a Real, exactly. -/
def execCvbr (src des : Ref) (s : State) : Host.Outcome State Fault Refusal :=
  runPlain (.cvbr src des)
    (writeBody .b .r (intToRealCalc .r s.ps) src des) s

/-- CVBL (R348): a Byte to a Longreal, exactly. -/
def execCvbl (src des : Ref) (s : State) : Host.Outcome State Fault Refusal :=
  runPlain (.cvbl src des)
    (writeBody .b .l (intToRealCalc .l s.ps) src des) s

/-- CVHR (R345): a Halfword to a Real, exactly. -/
def execCvhr (src des : Ref) (s : State) : Host.Outcome State Fault Refusal :=
  runPlain (.cvhr src des)
    (writeBody .h .r (intToRealCalc .r s.ps) src des) s

/-- CVHL (R349): a Halfword to a Longreal, exactly. -/
def execCvhl (src des : Ref) (s : State) : Host.Outcome State Fault Refusal :=
  runPlain (.cvhl src des)
    (writeBody .h .l (intToRealCalc .l s.ps) src des) s

/-- CVWR (R346): a Word to a Real, rounded. -/
def execCvwr (src des : Ref) (s : State) : Host.Outcome State Fault Refusal :=
  runPlain (.cvwr src des)
    (writeBody .w .r (intToRealCalc .r s.ps) src des) s

/-- CVWL (R350): a Word to a Longreal, exactly. -/
def execCvwl (src des : Ref) (s : State) : Host.Outcome State Fault Refusal :=
  runPlain (.cvwl src des)
    (writeBody .w .l (intToRealCalc .l s.ps) src des) s

/-- CVLR (R347): a Longreal to a Real; may round, underflow or overflow; Invalid on a NaN. -/
def execCvlr (src des : Ref) (s : State) : Host.Outcome State Fault Refusal :=
  runPlain (.cvlr src des)
    (writeBody .l .r (realToRealCalc .l .r s.cfg s.ps (s.freeNext (OpType.bits .r))) src des) s

/-- CVRL (R351): a Real to a Longreal, exactly; Invalid on a NaN. -/
def execCvrl (src des : Ref) (s : State) : Host.Outcome State Fault Refusal :=
  runPlain (.cvrl src des)
    (writeBody .r .l (realToRealCalc .r .l s.cfg s.ps (s.freeNext (OpType.bits .l))) src des) s

/-- CVRW (R352): a Real to a Word, rounded by RC; Integer Overflow where it does not fit; Invalid on a NaN. -/
def execCvrw (src des : Ref) (s : State) : Host.Outcome State Fault Refusal :=
  runPlain (.cvrw src des)
    (writeBody .r .w (realToWordCalc .r s.ps (s.freeNext 32)) src des) s

/-- CVLW (R353): a Longreal to a Word, rounded by RC; Integer Overflow where it does not fit; Invalid on a NaN. -/
def execCvlw (src des : Ref) (s : State) : Host.Outcome State Fault Refusal :=
  runPlain (.cvlw src des)
    (writeBody .l .w (realToWordCalc .l s.ps (s.freeNext 32)) src des) s

end Sys2Proof.Machine
end

