-- ==== Sys2Proof/Machine/Integer.lean ====
section
/-! DEFINITION. Integer move, arithmetic, decimal and integer conversion instructions (41_integer_arith.md). -/

namespace Sys2Proof.Machine

open Sys2Proof

/-- MOVB (R206): src -> des; no flag changes. -/
def execMovb (src des : Ref) (s : State) : Host.Outcome State Fault Refusal :=
  runPlain (.movb src des)
    (writeBody .b .b (moveCalc s.ps) src des) s

/-- MOVH (R207): src -> des; no flag changes. -/
def execMovh (src des : Ref) (s : State) : Host.Outcome State Fault Refusal :=
  runPlain (.movh src des)
    (writeBody .h .h (moveCalc s.ps) src des) s

/-- MOVW (R208): src -> des; no flag changes. -/
def execMovw (src des : Ref) (s : State) : Host.Outcome State Fault Refusal :=
  runPlain (.movw src des)
    (writeBody .w .w (moveCalc s.ps) src des) s

/-- NEGB (R209): 0 - src -> des, with the flags of the subtraction. -/
def execNegb (src des : Ref) (s : State) : Host.Outcome State Fault Refusal :=
  runPlain (.negb src des)
    (writeBody .b .b (fun a => arithCalc s.ps (subCore 0 a false)) src des) s

/-- NEGH (R210): 0 - src -> des, with the flags of the subtraction. -/
def execNegh (src des : Ref) (s : State) : Host.Outcome State Fault Refusal :=
  runPlain (.negh src des)
    (writeBody .h .h (fun a => arithCalc s.ps (subCore 0 a false)) src des) s

/-- NEGW (R211): 0 - src -> des, with the flags of the subtraction. -/
def execNegw (src des : Ref) (s : State) : Host.Outcome State Fault Refusal :=
  runPlain (.negw src des)
    (writeBody .w .w (fun a => arithCalc s.ps (subCore 0 a false)) src des) s

/-- ADDB (R212): src + dsrc -> des. -/
def execAddb (src des : Ref) (s : State) : Host.Outcome State Fault Refusal :=
  runPlain (.addb src des)
    (modifyBody .b .b (fun a b => arithCalc s.ps (addCore a b false)) src des) s

/-- ADDH (R213): src + dsrc -> des. -/
def execAddh (src des : Ref) (s : State) : Host.Outcome State Fault Refusal :=
  runPlain (.addh src des)
    (modifyBody .h .h (fun a b => arithCalc s.ps (addCore a b false)) src des) s

/-- ADDW (R214): src + dsrc -> des. -/
def execAddw (src des : Ref) (s : State) : Host.Outcome State Fault Refusal :=
  runPlain (.addw src des)
    (modifyBody .w .w (fun a b => arithCalc s.ps (addCore a b false)) src des) s

/-- ADCB (R215): src + dsrc + C -> des. -/
def execAdcb (src des : Ref) (s : State) : Host.Outcome State Fault Refusal :=
  runPlain (.adcb src des)
    (modifyBody .b .b (fun a b => arithCalc s.ps (addCore a b s.ps.fC)) src des) s

/-- ADCH (R216): src + dsrc + C -> des. -/
def execAdch (src des : Ref) (s : State) : Host.Outcome State Fault Refusal :=
  runPlain (.adch src des)
    (modifyBody .h .h (fun a b => arithCalc s.ps (addCore a b s.ps.fC)) src des) s

/-- ADCW (R217): src + dsrc + C -> des. -/
def execAdcw (src des : Ref) (s : State) : Host.Outcome State Fault Refusal :=
  runPlain (.adcw src des)
    (modifyBody .w .w (fun a b => arithCalc s.ps (addCore a b s.ps.fC)) src des) s

/-- SUBB (R218): dsrc - src -> des. -/
def execSubb (src des : Ref) (s : State) : Host.Outcome State Fault Refusal :=
  runPlain (.subb src des)
    (modifyBody .b .b (fun a b => arithCalc s.ps (subCore b a false)) src des) s

/-- SUBH (R219): dsrc - src -> des. -/
def execSubh (src des : Ref) (s : State) : Host.Outcome State Fault Refusal :=
  runPlain (.subh src des)
    (modifyBody .h .h (fun a b => arithCalc s.ps (subCore b a false)) src des) s

/-- SUBW (R220): dsrc - src -> des. -/
def execSubw (src des : Ref) (s : State) : Host.Outcome State Fault Refusal :=
  runPlain (.subw src des)
    (modifyBody .w .w (fun a b => arithCalc s.ps (subCore b a false)) src des) s

/-- SBBB (R221): dsrc - src - C -> des. -/
def execSbbb (src des : Ref) (s : State) : Host.Outcome State Fault Refusal :=
  runPlain (.sbbb src des)
    (modifyBody .b .b (fun a b => arithCalc s.ps (subCore b a s.ps.fC)) src des) s

/-- SBBH (R222): dsrc - src - C -> des. -/
def execSbbh (src des : Ref) (s : State) : Host.Outcome State Fault Refusal :=
  runPlain (.sbbh src des)
    (modifyBody .h .h (fun a b => arithCalc s.ps (subCore b a s.ps.fC)) src des) s

/-- SBBW (R223): dsrc - src - C -> des. -/
def execSbbw (src des : Ref) (s : State) : Host.Outcome State Fault Refusal :=
  runPlain (.sbbw src des)
    (modifyBody .w .w (fun a b => arithCalc s.ps (subCore b a s.ps.fC)) src des) s

/-- SBRB (R224): src - dsrc -> des. -/
def execSbrb (src des : Ref) (s : State) : Host.Outcome State Fault Refusal :=
  runPlain (.sbrb src des)
    (modifyBody .b .b (fun a b => arithCalc s.ps (subCore a b false)) src des) s

/-- SBRH (R225): src - dsrc -> des. -/
def execSbrh (src des : Ref) (s : State) : Host.Outcome State Fault Refusal :=
  runPlain (.sbrh src des)
    (modifyBody .h .h (fun a b => arithCalc s.ps (subCore a b false)) src des) s

/-- SBRW (R226): src - dsrc -> des. -/
def execSbrw (src des : Ref) (s : State) : Host.Outcome State Fault Refusal :=
  runPlain (.sbrw src des)
    (modifyBody .w .w (fun a b => arithCalc s.ps (subCore a b false)) src des) s

/-- CMPB (R227): the flags of src - dsrc; nothing is stored. -/
def execCmpb (src des : Ref) (s : State) : Host.Outcome State Fault Refusal :=
  runPlain (.cmpb src des)
    (flagsBody .b (compareFlags s.ps) src des) s

/-- CMPH (R228): the flags of src - dsrc; nothing is stored. -/
def execCmph (src des : Ref) (s : State) : Host.Outcome State Fault Refusal :=
  runPlain (.cmph src des)
    (flagsBody .h (compareFlags s.ps) src des) s

/-- CMPW (R229): the flags of src - dsrc; nothing is stored. -/
def execCmpw (src des : Ref) (s : State) : Host.Outcome State Fault Refusal :=
  runPlain (.cmpw src des)
    (flagsBody .w (compareFlags s.ps) src des) s

/-- MULB (R230): src * dsrc -> des, the low half; C is unchanged. -/
def execMulb (src des : Ref) (s : State) : Host.Outcome State Fault Refusal :=
  runPlain (.mulb src des)
    (modifyBody .b .b (fun a b => keepCCalc s.ps (mulCore a b)) src des) s

/-- MULH (R231): src * dsrc -> des, the low half; C is unchanged. -/
def execMulh (src des : Ref) (s : State) : Host.Outcome State Fault Refusal :=
  runPlain (.mulh src des)
    (modifyBody .h .h (fun a b => keepCCalc s.ps (mulCore a b)) src des) s

/-- MULW (R232): src * dsrc -> des, the low half; C is unchanged. -/
def execMulw (src des : Ref) (s : State) : Host.Outcome State Fault Refusal :=
  runPlain (.mulw src des)
    (modifyBody .w .w (fun a b => keepCCalc s.ps (mulCore a b)) src des) s

/-- DIVB (R233): dsrc / src -> des; C is unchanged; Integer Zero Divide on src = 0. -/
def execDivb (src des : Ref) (s : State) : Host.Outcome State Fault Refusal :=
  runPlain (.divb src des)
    (modifyBody .b .b (fun a b => divCalc s.ps (divCore b a)) src des) s

/-- DIVH (R234): dsrc / src -> des; C is unchanged; Integer Zero Divide on src = 0. -/
def execDivh (src des : Ref) (s : State) : Host.Outcome State Fault Refusal :=
  runPlain (.divh src des)
    (modifyBody .h .h (fun a b => divCalc s.ps (divCore b a)) src des) s

/-- DIVW (R235): dsrc / src -> des; C is unchanged; Integer Zero Divide on src = 0. -/
def execDivw (src des : Ref) (s : State) : Host.Outcome State Fault Refusal :=
  runPlain (.divw src des)
    (modifyBody .w .w (fun a b => divCalc s.ps (divCore b a)) src des) s

/-- DVRB (R236): src / dsrc -> des; C is unchanged; Integer Zero Divide on dsrc = 0. -/
def execDvrb (src des : Ref) (s : State) : Host.Outcome State Fault Refusal :=
  runPlain (.dvrb src des)
    (modifyBody .b .b (fun a b => divCalc s.ps (divCore a b)) src des) s

/-- DVRH (R237): src / dsrc -> des; C is unchanged; Integer Zero Divide on dsrc = 0. -/
def execDvrh (src des : Ref) (s : State) : Host.Outcome State Fault Refusal :=
  runPlain (.dvrh src des)
    (modifyBody .h .h (fun a b => divCalc s.ps (divCore a b)) src des) s

/-- DVRW (R238): src / dsrc -> des; C is unchanged; Integer Zero Divide on dsrc = 0. -/
def execDvrw (src des : Ref) (s : State) : Host.Outcome State Fault Refusal :=
  runPlain (.dvrw src des)
    (modifyBody .w .w (fun a b => divCalc s.ps (divCore a b)) src des) s

/-- REMB (R239): dsrc REM src -> des; C is unchanged, V cleared; Integer Zero Divide on src = 0. -/
def execRemb (src des : Ref) (s : State) : Host.Outcome State Fault Refusal :=
  runPlain (.remb src des)
    (modifyBody .b .b (fun a b => divCalc s.ps (remCore b a)) src des) s

/-- REMH (R240): dsrc REM src -> des; C is unchanged, V cleared; Integer Zero Divide on src = 0. -/
def execRemh (src des : Ref) (s : State) : Host.Outcome State Fault Refusal :=
  runPlain (.remh src des)
    (modifyBody .h .h (fun a b => divCalc s.ps (remCore b a)) src des) s

/-- REMW (R241): dsrc REM src -> des; C is unchanged, V cleared; Integer Zero Divide on src = 0. -/
def execRemw (src des : Ref) (s : State) : Host.Outcome State Fault Refusal :=
  runPlain (.remw src des)
    (modifyBody .w .w (fun a b => divCalc s.ps (remCore b a)) src des) s

/-- ADCD (R242): src + dsrc + C -> des in packed decimal. -/
def execAdcd (src des : Ref) (s : State) : Host.Outcome State Fault Refusal :=
  runPlain (.adcd src des)
    (modifyBody .b .b (adcdCalc s.ps) src des) s

/-- SBBD (R243): dsrc - src - C -> des in packed decimal. -/
def execSbbd (src des : Ref) (s : State) : Host.Outcome State Fault Refusal :=
  runPlain (.sbbd src des)
    (modifyBody .b .b (sbbdCalc s.ps) src des) s

/-- CVBW (R244): a Byte sign-extended to a Word. -/
def execCvbw (src des : Ref) (s : State) : Host.Outcome State Fault Refusal :=
  runPlain (.cvbw src des)
    (writeBody .b .w (widenCalc 32 s.ps) src des) s

/-- CVHW (R245): a Halfword sign-extended to a Word. -/
def execCvhw (src des : Ref) (s : State) : Host.Outcome State Fault Refusal :=
  runPlain (.cvhw src des)
    (writeBody .h .w (widenCalc 32 s.ps) src des) s

/-- CVWB (R246): the low Byte of a Word; Integer Overflow where it does not fit. -/
def execCvwb (src des : Ref) (s : State) : Host.Outcome State Fault Refusal :=
  runPlain (.cvwb src des)
    (writeBody .w .b (narrowCalc 8 s.ps) src des) s

/-- CVWH (R247): the low Halfword of a Word; Integer Overflow where it does not fit. -/
def execCvwh (src des : Ref) (s : State) : Host.Outcome State Fault Refusal :=
  runPlain (.cvwh src des)
    (writeBody .w .h (narrowCalc 16 s.ps) src des) s

end Sys2Proof.Machine
end

