-- ==== Sys2Proof/Machine/Io.lean ====
section
/-! DEFINITION. Communication instructions (46_io.md). -/

namespace Sys2Proof.Machine

open Sys2Proof

/-- A value with bit 0 forced to zero (R455). -/
def evenWord (v : Word) : Word := v &&& 0xFFFFFFFE

/-- The output channel is a member of a broadcast in progress (R446, R469). -/
def OutPort.inBroadcast (p : OutPort) : Bool := p.bcast && !p.ready

/-- A broadcast is in progress (R446). -/
def broadcasting (s : State) : Bool := s.out.toList.any OutPort.inBroadcast

/-- Channel `i` is in a mask: bits 0..9 and bit 31 (R445, R446). The positions are those of the source's sentence and
of `PORT_REG_LAYOUT` (R440). -/
def inMask (cfg : Params) (m : Word) (i : Fin 11) : Bool := portFlag cfg m i

/-- Some bit of the mask names no port (R442). -/
def badMask (cfg : Params) (m : Word) : Bool :=
  m != portWord cfg ((List.finRange 11).map (inMask cfg m))

/-- LPTR's own effect (R443): the address register of a port; a member of a broadcast in progress is refused (U4). -/
def lptrAct (a p : Word) (d : Done) (s : State) : Flow Done :=
  match inIndex p.toNat, outIndex p.toNat with
  | some i, _ => .ok d (s.setIn i { s.inPort i with address := evenWord a })
  | none, some i =>
    if (s.outPort i).inBroadcast then .refuse .broadcastMisuse
    else .ok d (s.setOut i { s.outPort i with address := evenWord a })
  | none, none => .refuse (.portNumber p.toNat)

/-- LCNT's own effect (R444): the count register of a port; an input port's error flags are reset, an output port
leaves the broadcast group; a member of a broadcast in progress is refused (U4). -/
def lcntAct (n : Word) (p : Byte) (d : Done) (s : State) : Flow Done :=
  match inIndex p.toNat, outIndex p.toNat with
  | some i, _ => .ok d (s.setIn i { s.inPort i with count := evenWord n, perr := false, ovr := false })
  | none, some i =>
    if (s.outPort i).inBroadcast then .refuse .broadcastMisuse
    else .ok d (s.setOut i { s.outPort i with count := evenWord n, bcast := false })
  | none, none => .refuse (.portNumber p.toNat)

/-- Every output channel of the mask is ready (U4). -/
def maskReady (s : State) (m : Word) : Bool :=
  (List.finRange 11).all (fun i => !inMask s.cfg m i || (s.outPort i).ready)

/-- The output channels of the mask hold one address (U4). -/
def maskAligned (s : State) (m : Word) : Bool :=
  (List.finRange 11).all fun i => (List.finRange 11).all fun j =>
    !(inMask s.cfg m i && inMask s.cfg m j) || (s.outPort i).address == (s.outPort j).address

/-- BPTR's own effect (R445): the address registers of the output ports of a mask. -/
def bptrAct (a m : Word) (d : Done) (s : State) : Flow Done :=
  if badMask s.cfg m then .refuse (.broadcastMask m)
  else if !maskReady s m then .refuse .broadcastMisuse
  else .ok d (s.mapOut fun i p => if inMask s.cfg m i then { p with address := evenWord a } else p)

/-- BCNT's own effect (R446): the count registers of the output ports of a mask, which become the broadcast group
where the count is not zero. -/
def bcntAct (n m : Word) (d : Done) (s : State) : Flow Done :=
  if badMask s.cfg m then .refuse (.broadcastMask m)
  else if broadcasting s || !maskReady s m || !maskAligned s m then .refuse .broadcastMisuse
  else
    .ok d (s.mapOut fun i p =>
      if inMask s.cfg m i then { p with count := evenWord n, bcast := evenWord n != 0 } else { p with bcast := false })

/-- LPTR (R443): the Word src -> the address register of port des. -/
def execLptr (src des : Ref) (s : State) : Host.Outcome State Fault Refusal :=
  runPlain (.lptr src des)
    (lookBody .w .w lptrAct src des) s

/-- LCNT (R444): the Word src -> the count register of port des. -/
def execLcnt (src des : Ref) (s : State) : Host.Outcome State Fault Refusal :=
  runPlain (.lcnt src des)
    (lookBody .w .b lcntAct src des) s

/-- BPTR (R445): the Word src -> the address registers of the output ports of mask des. -/
def execBptr (src des : Ref) (s : State) : Host.Outcome State Fault Refusal :=
  runPlain (.bptr src des)
    (lookBody .w .w bptrAct src des) s

/-- BCNT (R446): the Word src -> the count registers of the output ports of mask des. -/
def execBcnt (src des : Ref) (s : State) : Host.Outcome State Fault Refusal :=
  runPlain (.bcnt src des)
    (lookBody .w .w bcntAct src des) s

end Sys2Proof.Machine
end

