-- ==== Sys2Proof/Machine/Logic.lean ====
section
/-! DEFINITION. Logical, bit test, shift, rotate and find-first-one instructions (42_logic_shift.md). -/

namespace Sys2Proof.Machine

open Sys2Proof

/-- ANDB (R262): src AND dsrc -> des. -/
def execAndb (src des : Ref) (s : State) : Host.Outcome State Fault Refusal :=
  runPlain (.andb src des)
    (modifyBody .b .b (fun a b => logicCalc s.ps (a &&& b)) src des) s

/-- ANDH (R263): src AND dsrc -> des. -/
def execAndh (src des : Ref) (s : State) : Host.Outcome State Fault Refusal :=
  runPlain (.andh src des)
    (modifyBody .h .h (fun a b => logicCalc s.ps (a &&& b)) src des) s

/-- ANDW (R264): src AND dsrc -> des. -/
def execAndw (src des : Ref) (s : State) : Host.Outcome State Fault Refusal :=
  runPlain (.andw src des)
    (modifyBody .w .w (fun a b => logicCalc s.ps (a &&& b)) src des) s

/-- ORB (R265): src OR dsrc -> des. -/
def execOrb (src des : Ref) (s : State) : Host.Outcome State Fault Refusal :=
  runPlain (.orb src des)
    (modifyBody .b .b (fun a b => logicCalc s.ps (a ||| b)) src des) s

/-- ORH (R266): src OR dsrc -> des. -/
def execOrh (src des : Ref) (s : State) : Host.Outcome State Fault Refusal :=
  runPlain (.orh src des)
    (modifyBody .h .h (fun a b => logicCalc s.ps (a ||| b)) src des) s

/-- ORW (R267): src OR dsrc -> des. -/
def execOrw (src des : Ref) (s : State) : Host.Outcome State Fault Refusal :=
  runPlain (.orw src des)
    (modifyBody .w .w (fun a b => logicCalc s.ps (a ||| b)) src des) s

/-- XORB (R268): src XOR dsrc -> des. -/
def execXorb (src des : Ref) (s : State) : Host.Outcome State Fault Refusal :=
  runPlain (.xorb src des)
    (modifyBody .b .b (fun a b => logicCalc s.ps (a ^^^ b)) src des) s

/-- XORH (R269): src XOR dsrc -> des. -/
def execXorh (src des : Ref) (s : State) : Host.Outcome State Fault Refusal :=
  runPlain (.xorh src des)
    (modifyBody .h .h (fun a b => logicCalc s.ps (a ^^^ b)) src des) s

/-- XORW (R270): src XOR dsrc -> des. -/
def execXorw (src des : Ref) (s : State) : Host.Outcome State Fault Refusal :=
  runPlain (.xorw src des)
    (modifyBody .w .w (fun a b => logicCalc s.ps (a ^^^ b)) src des) s

/-- NOTB (R271): NOT src -> des. -/
def execNotb (src des : Ref) (s : State) : Host.Outcome State Fault Refusal :=
  runPlain (.notb src des)
    (writeBody .b .b (fun a => logicCalc s.ps (~~~a)) src des) s

/-- NOTH (R272): NOT src -> des. -/
def execNoth (src des : Ref) (s : State) : Host.Outcome State Fault Refusal :=
  runPlain (.noth src des)
    (writeBody .h .h (fun a => logicCalc s.ps (~~~a)) src des) s

/-- NOTW (R273): NOT src -> des. -/
def execNotw (src des : Ref) (s : State) : Host.Outcome State Fault Refusal :=
  runPlain (.notw src des)
    (writeBody .w .w (fun a => logicCalc s.ps (~~~a)) src des) s

/-- BITB (R274): the flags of src AND dsrc; nothing is stored. -/
def execBitb (src des : Ref) (s : State) : Host.Outcome State Fault Refusal :=
  runPlain (.bitb src des)
    (flagsBody .b (bitFlags s.ps) src des) s

/-- BITH (R275): the flags of src AND dsrc; nothing is stored. -/
def execBith (src des : Ref) (s : State) : Host.Outcome State Fault Refusal :=
  runPlain (.bith src des)
    (flagsBody .h (bitFlags s.ps) src des) s

/-- BITW (R276): the flags of src AND dsrc; nothing is stored. -/
def execBitw (src des : Ref) (s : State) : Host.Outcome State Fault Refusal :=
  runPlain (.bitw src des)
    (flagsBody .w (bitFlags s.ps) src des) s

/-- SFTB (R277): dsrc shifted logically by the Byte src. -/
def execSftb (src des : Ref) (s : State) : Host.Outcome State Fault Refusal :=
  runPlain (.sftb src des)
    (modifyBody .b .b (sftCalc s.ps) src des) s

/-- SFTH (R278): dsrc shifted logically by the Byte src. -/
def execSfth (src des : Ref) (s : State) : Host.Outcome State Fault Refusal :=
  runPlain (.sfth src des)
    (modifyBody .b .h (sftCalc s.ps) src des) s

/-- SFTW (R279): dsrc shifted logically by the Byte src. -/
def execSftw (src des : Ref) (s : State) : Host.Outcome State Fault Refusal :=
  runPlain (.sftw src des)
    (modifyBody .b .w (sftCalc s.ps) src des) s

/-- SFAB (R280): dsrc shifted arithmetically by the Byte src; Integer Overflow on a left shift. -/
def execSfab (src des : Ref) (s : State) : Host.Outcome State Fault Refusal :=
  runPlain (.sfab src des)
    (modifyBody .b .b (sfaCalc s.ps) src des) s

/-- SFAH (R281): dsrc shifted arithmetically by the Byte src; Integer Overflow on a left shift. -/
def execSfah (src des : Ref) (s : State) : Host.Outcome State Fault Refusal :=
  runPlain (.sfah src des)
    (modifyBody .b .h (sfaCalc s.ps) src des) s

/-- SFAW (R282): dsrc shifted arithmetically by the Byte src; Integer Overflow on a left shift. -/
def execSfaw (src des : Ref) (s : State) : Host.Outcome State Fault Refusal :=
  runPlain (.sfaw src des)
    (modifyBody .b .w (sfaCalc s.ps) src des) s

/-- ROTB (R283): dsrc rotated by the Byte src. -/
def execRotb (src des : Ref) (s : State) : Host.Outcome State Fault Refusal :=
  runPlain (.rotb src des)
    (modifyBody .b .b (rotCalc s.cfg.rot s.ps) src des) s

/-- ROTH (R284): dsrc rotated by the Byte src. -/
def execRoth (src des : Ref) (s : State) : Host.Outcome State Fault Refusal :=
  runPlain (.roth src des)
    (modifyBody .b .h (rotCalc s.cfg.rot s.ps) src des) s

/-- ROTW (R285): dsrc rotated by the Byte src. -/
def execRotw (src des : Ref) (s : State) : Host.Outcome State Fault Refusal :=
  runPlain (.rotw src des)
    (modifyBody .b .w (rotCalc s.cfg.rot s.ps) src des) s

/-- FFOB (R286): the place of the lowest one bit of src -> des, a Byte. -/
def execFfob (src des : Ref) (s : State) : Host.Outcome State Fault Refusal :=
  runPlain (.ffob src des)
    (writeBody .b .b (ffoCalc s.ps) src des) s

/-- FFOH (R287): the place of the lowest one bit of src -> des, a Byte. -/
def execFfoh (src des : Ref) (s : State) : Host.Outcome State Fault Refusal :=
  runPlain (.ffoh src des)
    (writeBody .h .b (ffoCalc s.ps) src des) s

/-- FFOW (R288): the place of the lowest one bit of src -> des, a Byte. -/
def execFfow (src des : Ref) (s : State) : Host.Outcome State Fault Refusal :=
  runPlain (.ffow src des)
    (writeBody .w .b (ffoCalc s.ps) src des) s

end Sys2Proof.Machine
end

