-- ==== Sys2Proof/Machine/System.lean ====
section
/-! DEFINITION. System instructions (45_system.md). -/

namespace Sys2Proof.Machine

open Sys2Proof

/-- The end of TRAP and BKPT (R418, R419): pc is where the entry put it, Stack Overflow and trace are not examined
(R493, R498; log 17, DEDUCED), and no repeat post-step follows (R404). -/
def Done.entry (pc : Word) : Done := ⟨pc, false, false, .none, true, false⟩

/-- A software interrupt (R418, R419): the entry sequence for number `n`, pushing `pcnext`. As before any other entry, the
instruction is noted as executed first (R100, log 14). -/
def softwareInterrupt (n : Nat) (next : Word) (s : State) : Flow Done :=
  (enter n next (s.noteExecuted s.pc)).bind fun _ s => .ok (Done.entry s.pc) s

/-- An input channel after RSET (R424): its registers, latch and error flags are cleared. -/
def InPort.abort (p : InPort) : InPort := { p with address := 0, count := 0, latch := 0, full := false, perr := false, ovr := false }

/-- An output channel after RSET (R424): its registers and broadcast flag are cleared; what is on its link stays
(R470). -/
def OutPort.abort (p : OutPort) : OutPort := { p with address := 0, count := 0, bcast := false }

/-- RSET's own effect (R424): every channel stops and is ready, and the latched conditions are gone. -/
def State.rset (s : State) : State :=
  { s with
      inp := s.inp.map InPort.abort
      out := s.out.map OutPort.abort
      ceLatch := false
      ueLatch := none
      ueActive := false }

/-- LDPR's own effect (R426): the register named by the Byte des is loaded. A load of SP has the Stack Overflow check
(R493), a load of PS no repeat post-step (R404). -/
def ldprAct (v : Word) (n : Byte) (d : Done) (s : State) : Flow Done :=
  match s.setProcReg n.toNat v with
  | some s => .ok { d with wroteSp := d.wroteSp || n == 0, post := n != 1 } s
  | none => .refuse (.processorRegister n.toNat)

/-- STPR's own effect (R427): the register named by the Byte src is read at the read step and stored; N and Z come
from the value, V and U are cleared. -/
def stprBody (src des : Ref) (next : Word) (s : State) : Flow Done :=
  (evalBoth .b .w .write src des s).bind fun l s =>
    (readLoc .b l.1 s).bind fun n s =>
      match s.procReg n.toNat with
      | some v =>
        settle .w l.2 (Done.plain next (popsStack src || popsStack des))
          (.done v (s.ps.withLogic v.msb (v == 0)) .none 0) s
      | none => .refuse (.processorRegister n.toNat)

/-- NOP (R410): nothing. -/
def execNop (s : State) : Host.Outcome State Fault Refusal :=
  runPlain .nop
    (simpleBody id) s

/-- CLC (R411): C is cleared. -/
def execClc (s : State) : Host.Outcome State Fault Refusal :=
  runPlain .clc
    (simpleBody fun s => { s with ps := { s.ps with fC := false } }) s

/-- STC (R412): C is set. -/
def execStc (s : State) : Host.Outcome State Fault Refusal :=
  runPlain .stc
    (simpleBody fun s => { s with ps := { s.ps with fC := true } }) s

/-- CMC (R413): C is reversed. -/
def execCmc (s : State) : Host.Outcome State Fault Refusal :=
  runPlain .cmc
    (simpleBody fun s => { s with ps := { s.ps with fC := !s.ps.fC } }) s

/-- EI (R414): IE is set, in force for the selection at the end of this instruction. -/
def execEi (s : State) : Host.Outcome State Fault Refusal :=
  runPlain .ei
    (simpleBody fun s => { s with ps := { s.ps with eIE := true } }) s

/-- DI (R415): IE is cleared. -/
def execDi (s : State) : Host.Outcome State Fault Refusal :=
  runPlain .di
    (simpleBody fun s => { s with ps := { s.ps with eIE := false } }) s

/-- ERON (R416): the Error flag is set. -/
def execEron (s : State) : Host.Outcome State Fault Refusal :=
  runPlain .eron
    (simpleBody fun s => { s with errorFlag := true }) s

/-- EROF (R417): the Error flag is cleared. -/
def execErof (s : State) : Host.Outcome State Fault Refusal :=
  runPlain .erof
    (simpleBody fun s => { s with errorFlag := false }) s

/-- BKPT (R418): interrupt 2, pushing the address of the next instruction. -/
def execBkpt (s : State) : Host.Outcome State Fault Refusal :=
  runPlain .bkpt
    (fun next s => softwareInterrupt 2 next s) s

/-- TRAP (R419): interrupt src, an unsigned Byte, pushing the address of the next instruction. -/
def execTrap (src : Ref) (s : State) : Host.Outcome State Fault Refusal :=
  runPlain (.trap src)
    (fun next s => readBody .b (fun n s => softwareInterrupt n.toNat next s) src s) s

/-- RETI (R420): pc and PS are popped. -/
def execReti (s : State) : Host.Outcome State Fault Refusal :=
  runPlain .reti
    (fun _ s => (returnFromInterrupt s).bind fun t s => .ok { Done.jump t true with post := false } s) s

/-- WAIT (R421): the processor goes Idle until an interrupt is selected. -/
def execWait (s : State) : Host.Outcome State Fault Refusal :=
  runPlain .wait
    (fun next s => .ok (Done.final next) { s with idle := true }) s

/-- RSET (R424): the channels are aborted and cleared and the latched conditions are gone. -/
def execRset (s : State) : Host.Outcome State Fault Refusal :=
  runPlain .rset
    (fun next s => .ok (Done.final next) s.rset) s

/-- LDPR (R426): the Word src -> the Processor register numbered by the Byte des. -/
def execLdpr (src des : Ref) (s : State) : Host.Outcome State Fault Refusal :=
  runPlain (.ldpr src des)
    (lookBody .w .b ldprAct src des) s

/-- STPR (R427): the Processor register numbered by the Byte src -> the Word des. -/
def execStpr (src des : Ref) (s : State) : Host.Outcome State Fault Refusal :=
  runPlain (.stpr src des)
    (stprBody src des) s

end Sys2Proof.Machine
end

