-- ==== Sys2Proof/Machine/Fetch.lean ====
section
/-! DEFINITION. Instruction fetch (20_memory.md R100, 40_operands.md R150 steps 1 and 2), and the placing of an
instruction where it is fetched. -/

namespace Sys2Proof.Machine

open Sys2Proof

/-- The `k` bytes of memory from address `a` up. -/
def readBytes (m : Memory) (a : Nat) : Nat → List Byte
  | 0 => []
  | k + 1 => m.read a :: readBytes m (a + 1) k

/-- The bytes an instruction at `pc` may be made of: those of memory, at most the longest instruction (R115). -/
def fetchBytes (s : State) : List Byte :=
  readBytes s.mem s.pc.toNat (min maxLength (s.cfg.memSize - s.pc.toNat))

/-- The first of the `n` bytes at `pc` whose buffered copy may be older than memory (R100 (b)). -/
def staleByte (s : State) (n : Nat) : Option Nat := s.staleIn s.pc.toNat n

/-- How many bytes of the instruction are fetched before any part of it takes effect: the opcode and REFERENCE 1 (R150
steps 1 to 3), and all of one that a repeat skips, whose specifiers are decoded to find `pcnext` (R401). Those of
REFERENCE 2 are fetched once REFERENCE 1 is evaluated, by `evalSecond` (R150 step 4). A reference that the end of memory
cuts off has the bytes that are there (log 14). -/
def fetchedFirst (i : Instr) (s : State) : Nat :=
  if s.ps.rep != 0 && repeatEnds s then i.length
  else 1 + ((i.parts.refs.head?.map fun p => p.2.length p.1).getD 0)

/-- A reserved opcode (R122, R491): interrupt 10 with `pc0` pushed. -/
def unimplementedOpcode (s : State) : Host.Outcome State Fault Refusal := finish none s.pc (.trap 10 s.pc s)

/-- The fetch of an instruction that would stand at 2^32 (R24): Address Error, with the 32 bits of its address, 0, pushed
(R502); in a smaller memory, in which no instruction ends at 2^32 - 1, the model stops (R80). Log 13. -/
def fetchPast (s : State) : Host.Outcome State Fault Refusal :=
  match (missingBytes s : Flow Unit) with
  | .trap n a t => entryOutcome n (enter n a t)
  | .fault f => .fault f
  | .refuse r => .refused r
  | .ok _ t => .next t

/-- The processor executes the instruction at `pc` (R150). Its bytes are taken from memory as it is here; where a byte of
REFERENCE 2 has been written by then, or an agent writes one before that reference is decoded, `evalSecond` refuses, and
only if REFERENCE 1 lets the instruction come to it (R100 (b)). -/
def executeNext (s : State) : Host.Outcome State Fault Refusal :=
  match decode s.cfg (fetchBytes s) with
  | .error .empty => finish none s.pc (missingBytes s)
  | .error (.reservedOpcode _) =>
    match staleByte s 1 with
    | some a => .refused (.staleFetch a)
    | none => unimplementedOpcode s
  | .ok (i, _) =>
    match staleByte s (fetchedFirst i s) with
    | some a => .refused (.staleFetch a)
    | none => exec i s

/-- The processor's step: an instruction, or in Idle the selection of an interrupt (R421, R515); where pc has passed
the last address, the fetch fails (R24). -/
def processorStep (s : State) : Host.Outcome State Fault Refusal :=
  if s.idle then takeAsync s else if s.pastEnd then fetchPast s else executeNext s

/-- One step of the node: of the processor where the schedule is empty or says so, else of the agent it names. -/
def nodeStep (s : State) : Host.Outcome State Fault Refusal :=
  match s.events with
  | [] => processorStep s
  | .cpu :: rest => processorStep { s with events := rest }
  | e :: rest => agentStep e { s with events := rest }

/-- Bytes written one after the other from address `a` up. -/
def writeBytes (m : Memory) (a : Nat) : List Byte → Memory
  | [] => m
  | b :: rest => writeBytes (m.write a b) (a + 1) rest

/-- The state with an instruction word's bytes at `pc`, fetched by the very next step: the processor is not Idle, it
moves next, pc has not passed the last address, and nothing near `pc` is suspect. -/
def State.placed (s : State) (bytes : List Byte) : State :=
  { s with
      mem := writeBytes s.mem s.pc.toNat bytes
      pastEnd := false
      fetch := ⟨[], [], []⟩
      idle := false
      events := [] }

end Sys2Proof.Machine
end

