-- ==== Sys2Proof/Machine/Step.lean ====
section
/-! DEFINITION. The step of the machine, and the state with a given instruction word where the step fetches. -/

namespace Sys2Proof.Machine

open Sys2Proof

/-- One step: next, fault or refusal. -/
def step (s : State) : Host.Outcome State Fault Refusal := nodeStep s

/-- The state with the instruction of an opcode-table word at `pc`. -/
def State.withFetchWord (s : State) (nbits w : Nat) : State := s.placed (wordBytes nbits w)

end Sys2Proof.Machine
end

