-- ==== Sys2Proof/Laws/PerInstr.lean ====
section
/-! SUPPORT. A statement about every instruction as syntax, one lemma for each constructor: an encodable instruction
has between 1 and 19 bytes, and its encoding has just that many (30_encoding.md R115). -/

open Sys2Proof

/-- The encoding of an encodable instruction has the instruction's length, which is between 1 and 19 bytes. -/
def Sys2Proof.Laws.EncodingLength.Statement (i : Instr) : Prop :=
  i.encodable = true → 1 ≤ i.length ∧ i.length ≤ maxLength ∧ ∀ cfg, (encode cfg i).length = i.length

theorem Sys2Proof.bytesLE_length : ∀ (n v : Nat), (bytesLE n v).length = n
  | 0, _ => rfl
  | n + 1, v => by simp [bytesLE, Sys2Proof.bytesLE_length n]

theorem Sys2Proof.RefKind.immLen_le (k : RefKind) : k.immLen.getD 0 ≤ 8 := by
  cases k with
  | value t => cases t <;> simp [RefKind.immLen, OpType.len]
  | dest t => cases t <;> simp [RefKind.immLen]
  | addr => simp [RefKind.immLen]
  | count => simp [RefKind.immLen]

/-- The bytes of an encodable reference are as many as its length says. -/
theorem Sys2Proof.encodeRef_length (cfg : Params) (k : RefKind) (r : Ref) (h : r.encodable k = true) :
    (encodeRef cfg k r).length = r.length k := by
  cases r with
  | illegal b => cases h
  | missing n => cases h
  | _ => simp [encodeRef, Ref.length, Ref.extra, Sys2Proof.bytesLE_length, Nat.add_comm]

theorem Sys2Proof.Ref.length_le (k : RefKind) (r : Ref) : r.length k ≤ 9 := by
  cases r with
  | imm v => have := RefKind.immLen_le k; simp only [Ref.length, Ref.extra]; omega
  | missing n => have := n.isLt; simp only [Ref.length]; omega
  | _ => simp [Ref.length, Ref.extra]

theorem Sys2Proof.Instr.refs_le (i : Instr) : i.parts.refs.length ≤ 2 := by
  cases i <;> simp [Instr.parts]

theorem Sys2Proof.flatMap_length_eq (cfg : Params) : ∀ (refs : List (RefKind × Ref)),
    refs.all (fun p => p.2.encodable p.1) = true →
      (refs.flatMap (fun p => encodeRef cfg p.1 p.2)).length = (refs.map (fun p => p.2.length p.1)).sum
  | [], _ => rfl
  | p :: rest, h => by
    simp only [List.all_cons, Bool.and_eq_true] at h
    rw [List.flatMap_cons, List.length_append, List.map_cons, List.sum_cons, flatMap_length_eq cfg rest h.2,
      encodeRef_length cfg p.1 p.2 h.1]

theorem Sys2Proof.lengths_le : ∀ (refs : List (RefKind × Ref)),
    (refs.map (fun p => p.2.length p.1)).sum ≤ 9 * refs.length
  | [] => by simp
  | p :: rest => by
    have h1 := lengths_le rest
    have h2 := Ref.length_le p.1 p.2
    rw [List.map_cons, List.sum_cons, List.length_cons]; omega

/-- The statement holds whatever the instruction is. -/
theorem Sys2Proof.Laws.encodingLength (i : Instr) : Sys2Proof.Laws.EncodingLength.Statement i := by
  intro h
  have h1 := lengths_le i.parts.refs
  have h2 := Instr.refs_le i
  refine ⟨by simp [Instr.length], by simp only [Instr.length, maxLength]; omega, fun cfg => ?_⟩
  simp only [encode, List.length_cons, flatMap_length_eq cfg _ h, Instr.length]
  omega

theorem Sys2Proof.Laws.EncodingLength.movb (src des : Ref) : Sys2Proof.Laws.EncodingLength.Statement (.movb src des) := Sys2Proof.Laws.encodingLength _
theorem Sys2Proof.Laws.EncodingLength.sftb (src des : Ref) : Sys2Proof.Laws.EncodingLength.Statement (.sftb src des) := Sys2Proof.Laws.encodingLength _
theorem Sys2Proof.Laws.EncodingLength.movh (src des : Ref) : Sys2Proof.Laws.EncodingLength.Statement (.movh src des) := Sys2Proof.Laws.encodingLength _
theorem Sys2Proof.Laws.EncodingLength.sfth (src des : Ref) : Sys2Proof.Laws.EncodingLength.Statement (.sfth src des) := Sys2Proof.Laws.encodingLength _
theorem Sys2Proof.Laws.EncodingLength.movw (src des : Ref) : Sys2Proof.Laws.EncodingLength.Statement (.movw src des) := Sys2Proof.Laws.encodingLength _
theorem Sys2Proof.Laws.EncodingLength.sftw (src des : Ref) : Sys2Proof.Laws.EncodingLength.Statement (.sftw src des) := Sys2Proof.Laws.encodingLength _
theorem Sys2Proof.Laws.EncodingLength.movr (src des : Ref) : Sys2Proof.Laws.EncodingLength.Statement (.movr src des) := Sys2Proof.Laws.encodingLength _
theorem Sys2Proof.Laws.EncodingLength.cvbr (src des : Ref) : Sys2Proof.Laws.EncodingLength.Statement (.cvbr src des) := Sys2Proof.Laws.encodingLength _
theorem Sys2Proof.Laws.EncodingLength.movl (src des : Ref) : Sys2Proof.Laws.EncodingLength.Statement (.movl src des) := Sys2Proof.Laws.encodingLength _
theorem Sys2Proof.Laws.EncodingLength.nop : Sys2Proof.Laws.EncodingLength.Statement .nop := Sys2Proof.Laws.encodingLength _
theorem Sys2Proof.Laws.EncodingLength.bg (src : Ref) : Sys2Proof.Laws.EncodingLength.Statement (.bg src) := Sys2Proof.Laws.encodingLength _
theorem Sys2Proof.Laws.EncodingLength.negb (src des : Ref) : Sys2Proof.Laws.EncodingLength.Statement (.negb src des) := Sys2Proof.Laws.encodingLength _
theorem Sys2Proof.Laws.EncodingLength.sfab (src des : Ref) : Sys2Proof.Laws.EncodingLength.Statement (.sfab src des) := Sys2Proof.Laws.encodingLength _
theorem Sys2Proof.Laws.EncodingLength.negh (src des : Ref) : Sys2Proof.Laws.EncodingLength.Statement (.negh src des) := Sys2Proof.Laws.encodingLength _
theorem Sys2Proof.Laws.EncodingLength.sfah (src des : Ref) : Sys2Proof.Laws.EncodingLength.Statement (.sfah src des) := Sys2Proof.Laws.encodingLength _
theorem Sys2Proof.Laws.EncodingLength.negw (src des : Ref) : Sys2Proof.Laws.EncodingLength.Statement (.negw src des) := Sys2Proof.Laws.encodingLength _
theorem Sys2Proof.Laws.EncodingLength.sfaw (src des : Ref) : Sys2Proof.Laws.EncodingLength.Statement (.sfaw src des) := Sys2Proof.Laws.encodingLength _
theorem Sys2Proof.Laws.EncodingLength.negr (src des : Ref) : Sys2Proof.Laws.EncodingLength.Statement (.negr src des) := Sys2Proof.Laws.encodingLength _
theorem Sys2Proof.Laws.EncodingLength.cvhr (src des : Ref) : Sys2Proof.Laws.EncodingLength.Statement (.cvhr src des) := Sys2Proof.Laws.encodingLength _
theorem Sys2Proof.Laws.EncodingLength.negl (src des : Ref) : Sys2Proof.Laws.EncodingLength.Statement (.negl src des) := Sys2Proof.Laws.encodingLength _
theorem Sys2Proof.Laws.EncodingLength.clc : Sys2Proof.Laws.EncodingLength.Statement .clc := Sys2Proof.Laws.encodingLength _
theorem Sys2Proof.Laws.EncodingLength.rep (src : Ref) : Sys2Proof.Laws.EncodingLength.Statement (.rep src) := Sys2Proof.Laws.encodingLength _
theorem Sys2Proof.Laws.EncodingLength.ble (src : Ref) : Sys2Proof.Laws.EncodingLength.Statement (.ble src) := Sys2Proof.Laws.encodingLength _
theorem Sys2Proof.Laws.EncodingLength.sbrb (src des : Ref) : Sys2Proof.Laws.EncodingLength.Statement (.sbrb src des) := Sys2Proof.Laws.encodingLength _
theorem Sys2Proof.Laws.EncodingLength.rotb (src des : Ref) : Sys2Proof.Laws.EncodingLength.Statement (.rotb src des) := Sys2Proof.Laws.encodingLength _
theorem Sys2Proof.Laws.EncodingLength.sbrh (src des : Ref) : Sys2Proof.Laws.EncodingLength.Statement (.sbrh src des) := Sys2Proof.Laws.encodingLength _
theorem Sys2Proof.Laws.EncodingLength.roth (src des : Ref) : Sys2Proof.Laws.EncodingLength.Statement (.roth src des) := Sys2Proof.Laws.encodingLength _
theorem Sys2Proof.Laws.EncodingLength.sbrw (src des : Ref) : Sys2Proof.Laws.EncodingLength.Statement (.sbrw src des) := Sys2Proof.Laws.encodingLength _
theorem Sys2Proof.Laws.EncodingLength.rotw (src des : Ref) : Sys2Proof.Laws.EncodingLength.Statement (.rotw src des) := Sys2Proof.Laws.encodingLength _
theorem Sys2Proof.Laws.EncodingLength.sbrr (src des : Ref) : Sys2Proof.Laws.EncodingLength.Statement (.sbrr src des) := Sys2Proof.Laws.encodingLength _
theorem Sys2Proof.Laws.EncodingLength.cvwr (src des : Ref) : Sys2Proof.Laws.EncodingLength.Statement (.cvwr src des) := Sys2Proof.Laws.encodingLength _
theorem Sys2Proof.Laws.EncodingLength.sbrl (src des : Ref) : Sys2Proof.Laws.EncodingLength.Statement (.sbrl src des) := Sys2Proof.Laws.encodingLength _
theorem Sys2Proof.Laws.EncodingLength.stc : Sys2Proof.Laws.EncodingLength.Statement .stc := Sys2Proof.Laws.encodingLength _
theorem Sys2Proof.Laws.EncodingLength.repz (src : Ref) : Sys2Proof.Laws.EncodingLength.Statement (.repz src) := Sys2Proof.Laws.encodingLength _
theorem Sys2Proof.Laws.EncodingLength.bgu (src : Ref) : Sys2Proof.Laws.EncodingLength.Statement (.bgu src) := Sys2Proof.Laws.encodingLength _
theorem Sys2Proof.Laws.EncodingLength.cmpb (src des : Ref) : Sys2Proof.Laws.EncodingLength.Statement (.cmpb src des) := Sys2Proof.Laws.encodingLength _
theorem Sys2Proof.Laws.EncodingLength.ffob (src des : Ref) : Sys2Proof.Laws.EncodingLength.Statement (.ffob src des) := Sys2Proof.Laws.encodingLength _
theorem Sys2Proof.Laws.EncodingLength.cmph (src des : Ref) : Sys2Proof.Laws.EncodingLength.Statement (.cmph src des) := Sys2Proof.Laws.encodingLength _
theorem Sys2Proof.Laws.EncodingLength.ffoh (src des : Ref) : Sys2Proof.Laws.EncodingLength.Statement (.ffoh src des) := Sys2Proof.Laws.encodingLength _
theorem Sys2Proof.Laws.EncodingLength.cmpw (src des : Ref) : Sys2Proof.Laws.EncodingLength.Statement (.cmpw src des) := Sys2Proof.Laws.encodingLength _
theorem Sys2Proof.Laws.EncodingLength.ffow (src des : Ref) : Sys2Proof.Laws.EncodingLength.Statement (.ffow src des) := Sys2Proof.Laws.encodingLength _
theorem Sys2Proof.Laws.EncodingLength.cmpr (src des : Ref) : Sys2Proof.Laws.EncodingLength.Statement (.cmpr src des) := Sys2Proof.Laws.encodingLength _
theorem Sys2Proof.Laws.EncodingLength.cvlr (src des : Ref) : Sys2Proof.Laws.EncodingLength.Statement (.cvlr src des) := Sys2Proof.Laws.encodingLength _
theorem Sys2Proof.Laws.EncodingLength.cmpl (src des : Ref) : Sys2Proof.Laws.EncodingLength.Statement (.cmpl src des) := Sys2Proof.Laws.encodingLength _
theorem Sys2Proof.Laws.EncodingLength.cmc : Sys2Proof.Laws.EncodingLength.Statement .cmc := Sys2Proof.Laws.encodingLength _
theorem Sys2Proof.Laws.EncodingLength.repnz (src : Ref) : Sys2Proof.Laws.EncodingLength.Statement (.repnz src) := Sys2Proof.Laws.encodingLength _
theorem Sys2Proof.Laws.EncodingLength.bleu (src : Ref) : Sys2Proof.Laws.EncodingLength.Statement (.bleu src) := Sys2Proof.Laws.encodingLength _
theorem Sys2Proof.Laws.EncodingLength.addb (src des : Ref) : Sys2Proof.Laws.EncodingLength.Statement (.addb src des) := Sys2Proof.Laws.encodingLength _
theorem Sys2Proof.Laws.EncodingLength.andb (src des : Ref) : Sys2Proof.Laws.EncodingLength.Statement (.andb src des) := Sys2Proof.Laws.encodingLength _
theorem Sys2Proof.Laws.EncodingLength.addh (src des : Ref) : Sys2Proof.Laws.EncodingLength.Statement (.addh src des) := Sys2Proof.Laws.encodingLength _
theorem Sys2Proof.Laws.EncodingLength.andh (src des : Ref) : Sys2Proof.Laws.EncodingLength.Statement (.andh src des) := Sys2Proof.Laws.encodingLength _
theorem Sys2Proof.Laws.EncodingLength.addw (src des : Ref) : Sys2Proof.Laws.EncodingLength.Statement (.addw src des) := Sys2Proof.Laws.encodingLength _
theorem Sys2Proof.Laws.EncodingLength.andw (src des : Ref) : Sys2Proof.Laws.EncodingLength.Statement (.andw src des) := Sys2Proof.Laws.encodingLength _
theorem Sys2Proof.Laws.EncodingLength.addr (src des : Ref) : Sys2Proof.Laws.EncodingLength.Statement (.addr src des) := Sys2Proof.Laws.encodingLength _
theorem Sys2Proof.Laws.EncodingLength.cvbl (src des : Ref) : Sys2Proof.Laws.EncodingLength.Statement (.cvbl src des) := Sys2Proof.Laws.encodingLength _
theorem Sys2Proof.Laws.EncodingLength.addl (src des : Ref) : Sys2Proof.Laws.EncodingLength.Statement (.addl src des) := Sys2Proof.Laws.encodingLength _
theorem Sys2Proof.Laws.EncodingLength.eron : Sys2Proof.Laws.EncodingLength.Statement .eron := Sys2Proof.Laws.encodingLength _
theorem Sys2Proof.Laws.EncodingLength.trap (src : Ref) : Sys2Proof.Laws.EncodingLength.Statement (.trap src) := Sys2Proof.Laws.encodingLength _
theorem Sys2Proof.Laws.EncodingLength.bge (src : Ref) : Sys2Proof.Laws.EncodingLength.Statement (.bge src) := Sys2Proof.Laws.encodingLength _
theorem Sys2Proof.Laws.EncodingLength.adcb (src des : Ref) : Sys2Proof.Laws.EncodingLength.Statement (.adcb src des) := Sys2Proof.Laws.encodingLength _
theorem Sys2Proof.Laws.EncodingLength.orb (src des : Ref) : Sys2Proof.Laws.EncodingLength.Statement (.orb src des) := Sys2Proof.Laws.encodingLength _
theorem Sys2Proof.Laws.EncodingLength.adch (src des : Ref) : Sys2Proof.Laws.EncodingLength.Statement (.adch src des) := Sys2Proof.Laws.encodingLength _
theorem Sys2Proof.Laws.EncodingLength.orh (src des : Ref) : Sys2Proof.Laws.EncodingLength.Statement (.orh src des) := Sys2Proof.Laws.encodingLength _
theorem Sys2Proof.Laws.EncodingLength.adcw (src des : Ref) : Sys2Proof.Laws.EncodingLength.Statement (.adcw src des) := Sys2Proof.Laws.encodingLength _
theorem Sys2Proof.Laws.EncodingLength.orw (src des : Ref) : Sys2Proof.Laws.EncodingLength.Statement (.orw src des) := Sys2Proof.Laws.encodingLength _
theorem Sys2Proof.Laws.EncodingLength.sqtr (src des : Ref) : Sys2Proof.Laws.EncodingLength.Statement (.sqtr src des) := Sys2Proof.Laws.encodingLength _
theorem Sys2Proof.Laws.EncodingLength.cvhl (src des : Ref) : Sys2Proof.Laws.EncodingLength.Statement (.cvhl src des) := Sys2Proof.Laws.encodingLength _
theorem Sys2Proof.Laws.EncodingLength.sqtl (src des : Ref) : Sys2Proof.Laws.EncodingLength.Statement (.sqtl src des) := Sys2Proof.Laws.encodingLength _
theorem Sys2Proof.Laws.EncodingLength.erof : Sys2Proof.Laws.EncodingLength.Statement .erof := Sys2Proof.Laws.encodingLength _
theorem Sys2Proof.Laws.EncodingLength.bl (src : Ref) : Sys2Proof.Laws.EncodingLength.Statement (.bl src) := Sys2Proof.Laws.encodingLength _
theorem Sys2Proof.Laws.EncodingLength.subb (src des : Ref) : Sys2Proof.Laws.EncodingLength.Statement (.subb src des) := Sys2Proof.Laws.encodingLength _
theorem Sys2Proof.Laws.EncodingLength.xorb (src des : Ref) : Sys2Proof.Laws.EncodingLength.Statement (.xorb src des) := Sys2Proof.Laws.encodingLength _
theorem Sys2Proof.Laws.EncodingLength.subh (src des : Ref) : Sys2Proof.Laws.EncodingLength.Statement (.subh src des) := Sys2Proof.Laws.encodingLength _
theorem Sys2Proof.Laws.EncodingLength.xorh (src des : Ref) : Sys2Proof.Laws.EncodingLength.Statement (.xorh src des) := Sys2Proof.Laws.encodingLength _
theorem Sys2Proof.Laws.EncodingLength.subw (src des : Ref) : Sys2Proof.Laws.EncodingLength.Statement (.subw src des) := Sys2Proof.Laws.encodingLength _
theorem Sys2Proof.Laws.EncodingLength.xorw (src des : Ref) : Sys2Proof.Laws.EncodingLength.Statement (.xorw src des) := Sys2Proof.Laws.encodingLength _
theorem Sys2Proof.Laws.EncodingLength.subr (src des : Ref) : Sys2Proof.Laws.EncodingLength.Statement (.subr src des) := Sys2Proof.Laws.encodingLength _
theorem Sys2Proof.Laws.EncodingLength.cvwl (src des : Ref) : Sys2Proof.Laws.EncodingLength.Statement (.cvwl src des) := Sys2Proof.Laws.encodingLength _
theorem Sys2Proof.Laws.EncodingLength.subl (src des : Ref) : Sys2Proof.Laws.EncodingLength.Statement (.subl src des) := Sys2Proof.Laws.encodingLength _
theorem Sys2Proof.Laws.EncodingLength.bkpt : Sys2Proof.Laws.EncodingLength.Statement .bkpt := Sys2Proof.Laws.encodingLength _
theorem Sys2Proof.Laws.EncodingLength.bgeu (src : Ref) : Sys2Proof.Laws.EncodingLength.Statement (.bgeu src) := Sys2Proof.Laws.encodingLength _
theorem Sys2Proof.Laws.EncodingLength.sbbb (src des : Ref) : Sys2Proof.Laws.EncodingLength.Statement (.sbbb src des) := Sys2Proof.Laws.encodingLength _
theorem Sys2Proof.Laws.EncodingLength.notb (src des : Ref) : Sys2Proof.Laws.EncodingLength.Statement (.notb src des) := Sys2Proof.Laws.encodingLength _
theorem Sys2Proof.Laws.EncodingLength.sbbh (src des : Ref) : Sys2Proof.Laws.EncodingLength.Statement (.sbbh src des) := Sys2Proof.Laws.encodingLength _
theorem Sys2Proof.Laws.EncodingLength.noth (src des : Ref) : Sys2Proof.Laws.EncodingLength.Statement (.noth src des) := Sys2Proof.Laws.encodingLength _
theorem Sys2Proof.Laws.EncodingLength.sbbw (src des : Ref) : Sys2Proof.Laws.EncodingLength.Statement (.sbbw src des) := Sys2Proof.Laws.encodingLength _
theorem Sys2Proof.Laws.EncodingLength.notw (src des : Ref) : Sys2Proof.Laws.EncodingLength.Statement (.notw src des) := Sys2Proof.Laws.encodingLength _
theorem Sys2Proof.Laws.EncodingLength.sgnr (src des : Ref) : Sys2Proof.Laws.EncodingLength.Statement (.sgnr src des) := Sys2Proof.Laws.encodingLength _
theorem Sys2Proof.Laws.EncodingLength.cvrl (src des : Ref) : Sys2Proof.Laws.EncodingLength.Statement (.cvrl src des) := Sys2Proof.Laws.encodingLength _
theorem Sys2Proof.Laws.EncodingLength.sgnl (src des : Ref) : Sys2Proof.Laws.EncodingLength.Statement (.sgnl src des) := Sys2Proof.Laws.encodingLength _
theorem Sys2Proof.Laws.EncodingLength.rset : Sys2Proof.Laws.EncodingLength.Statement .rset := Sys2Proof.Laws.encodingLength _
theorem Sys2Proof.Laws.EncodingLength.blu (src : Ref) : Sys2Proof.Laws.EncodingLength.Statement (.blu src) := Sys2Proof.Laws.encodingLength _
theorem Sys2Proof.Laws.EncodingLength.mulb (src des : Ref) : Sys2Proof.Laws.EncodingLength.Statement (.mulb src des) := Sys2Proof.Laws.encodingLength _
theorem Sys2Proof.Laws.EncodingLength.adcd (src des : Ref) : Sys2Proof.Laws.EncodingLength.Statement (.adcd src des) := Sys2Proof.Laws.encodingLength _
theorem Sys2Proof.Laws.EncodingLength.mulh (src des : Ref) : Sys2Proof.Laws.EncodingLength.Statement (.mulh src des) := Sys2Proof.Laws.encodingLength _
theorem Sys2Proof.Laws.EncodingLength.mulw (src des : Ref) : Sys2Proof.Laws.EncodingLength.Statement (.mulw src des) := Sys2Proof.Laws.encodingLength _
theorem Sys2Proof.Laws.EncodingLength.ldpr (src des : Ref) : Sys2Proof.Laws.EncodingLength.Statement (.ldpr src des) := Sys2Proof.Laws.encodingLength _
theorem Sys2Proof.Laws.EncodingLength.mulr (src des : Ref) : Sys2Proof.Laws.EncodingLength.Statement (.mulr src des) := Sys2Proof.Laws.encodingLength _
theorem Sys2Proof.Laws.EncodingLength.cvbw (src des : Ref) : Sys2Proof.Laws.EncodingLength.Statement (.cvbw src des) := Sys2Proof.Laws.encodingLength _
theorem Sys2Proof.Laws.EncodingLength.mull (src des : Ref) : Sys2Proof.Laws.EncodingLength.Statement (.mull src des) := Sys2Proof.Laws.encodingLength _
theorem Sys2Proof.Laws.EncodingLength.ei : Sys2Proof.Laws.EncodingLength.Statement .ei := Sys2Proof.Laws.encodingLength _
theorem Sys2Proof.Laws.EncodingLength.bne (src : Ref) : Sys2Proof.Laws.EncodingLength.Statement (.bne src) := Sys2Proof.Laws.encodingLength _
theorem Sys2Proof.Laws.EncodingLength.dvrb (src des : Ref) : Sys2Proof.Laws.EncodingLength.Statement (.dvrb src des) := Sys2Proof.Laws.encodingLength _
theorem Sys2Proof.Laws.EncodingLength.sbbd (src des : Ref) : Sys2Proof.Laws.EncodingLength.Statement (.sbbd src des) := Sys2Proof.Laws.encodingLength _
theorem Sys2Proof.Laws.EncodingLength.dvrh (src des : Ref) : Sys2Proof.Laws.EncodingLength.Statement (.dvrh src des) := Sys2Proof.Laws.encodingLength _
theorem Sys2Proof.Laws.EncodingLength.dvrw (src des : Ref) : Sys2Proof.Laws.EncodingLength.Statement (.dvrw src des) := Sys2Proof.Laws.encodingLength _
theorem Sys2Proof.Laws.EncodingLength.stpr (src des : Ref) : Sys2Proof.Laws.EncodingLength.Statement (.stpr src des) := Sys2Proof.Laws.encodingLength _
theorem Sys2Proof.Laws.EncodingLength.dvrr (src des : Ref) : Sys2Proof.Laws.EncodingLength.Statement (.dvrr src des) := Sys2Proof.Laws.encodingLength _
theorem Sys2Proof.Laws.EncodingLength.cvhw (src des : Ref) : Sys2Proof.Laws.EncodingLength.Statement (.cvhw src des) := Sys2Proof.Laws.encodingLength _
theorem Sys2Proof.Laws.EncodingLength.dvrl (src des : Ref) : Sys2Proof.Laws.EncodingLength.Statement (.dvrl src des) := Sys2Proof.Laws.encodingLength _
theorem Sys2Proof.Laws.EncodingLength.di : Sys2Proof.Laws.EncodingLength.Statement .di := Sys2Proof.Laws.encodingLength _
theorem Sys2Proof.Laws.EncodingLength.be (src : Ref) : Sys2Proof.Laws.EncodingLength.Statement (.be src) := Sys2Proof.Laws.encodingLength _
theorem Sys2Proof.Laws.EncodingLength.remb (src des : Ref) : Sys2Proof.Laws.EncodingLength.Statement (.remb src des) := Sys2Proof.Laws.encodingLength _
theorem Sys2Proof.Laws.EncodingLength.remh (src des : Ref) : Sys2Proof.Laws.EncodingLength.Statement (.remh src des) := Sys2Proof.Laws.encodingLength _
theorem Sys2Proof.Laws.EncodingLength.remw (src des : Ref) : Sys2Proof.Laws.EncodingLength.Statement (.remw src des) := Sys2Proof.Laws.encodingLength _
theorem Sys2Proof.Laws.EncodingLength.lcnt (src des : Ref) : Sys2Proof.Laws.EncodingLength.Statement (.lcnt src des) := Sys2Proof.Laws.encodingLength _
theorem Sys2Proof.Laws.EncodingLength.remr (src des : Ref) : Sys2Proof.Laws.EncodingLength.Statement (.remr src des) := Sys2Proof.Laws.encodingLength _
theorem Sys2Proof.Laws.EncodingLength.cvwb (src des : Ref) : Sys2Proof.Laws.EncodingLength.Statement (.cvwb src des) := Sys2Proof.Laws.encodingLength _
theorem Sys2Proof.Laws.EncodingLength.reml (src des : Ref) : Sys2Proof.Laws.EncodingLength.Statement (.reml src des) := Sys2Proof.Laws.encodingLength _
theorem Sys2Proof.Laws.EncodingLength.bnv (src : Ref) : Sys2Proof.Laws.EncodingLength.Statement (.bnv src) := Sys2Proof.Laws.encodingLength _
theorem Sys2Proof.Laws.EncodingLength.divb (src des : Ref) : Sys2Proof.Laws.EncodingLength.Statement (.divb src des) := Sys2Proof.Laws.encodingLength _
theorem Sys2Proof.Laws.EncodingLength.divh (src des : Ref) : Sys2Proof.Laws.EncodingLength.Statement (.divh src des) := Sys2Proof.Laws.encodingLength _
theorem Sys2Proof.Laws.EncodingLength.divw (src des : Ref) : Sys2Proof.Laws.EncodingLength.Statement (.divw src des) := Sys2Proof.Laws.encodingLength _
theorem Sys2Proof.Laws.EncodingLength.lptr (src des : Ref) : Sys2Proof.Laws.EncodingLength.Statement (.lptr src des) := Sys2Proof.Laws.encodingLength _
theorem Sys2Proof.Laws.EncodingLength.divr (src des : Ref) : Sys2Proof.Laws.EncodingLength.Statement (.divr src des) := Sys2Proof.Laws.encodingLength _
theorem Sys2Proof.Laws.EncodingLength.cvwh (src des : Ref) : Sys2Proof.Laws.EncodingLength.Statement (.cvwh src des) := Sys2Proof.Laws.encodingLength _
theorem Sys2Proof.Laws.EncodingLength.divl (src des : Ref) : Sys2Proof.Laws.EncodingLength.Statement (.divl src des) := Sys2Proof.Laws.encodingLength _
theorem Sys2Proof.Laws.EncodingLength.bv (src : Ref) : Sys2Proof.Laws.EncodingLength.Statement (.bv src) := Sys2Proof.Laws.encodingLength _
theorem Sys2Proof.Laws.EncodingLength.bitb (src des : Ref) : Sys2Proof.Laws.EncodingLength.Statement (.bitb src des) := Sys2Proof.Laws.encodingLength _
theorem Sys2Proof.Laws.EncodingLength.bith (src des : Ref) : Sys2Proof.Laws.EncodingLength.Statement (.bith src des) := Sys2Proof.Laws.encodingLength _
theorem Sys2Proof.Laws.EncodingLength.bitw (src des : Ref) : Sys2Proof.Laws.EncodingLength.Statement (.bitw src des) := Sys2Proof.Laws.encodingLength _
theorem Sys2Proof.Laws.EncodingLength.bcnt (src des : Ref) : Sys2Proof.Laws.EncodingLength.Statement (.bcnt src des) := Sys2Proof.Laws.encodingLength _
theorem Sys2Proof.Laws.EncodingLength.cvrw (src des : Ref) : Sys2Proof.Laws.EncodingLength.Statement (.cvrw src des) := Sys2Proof.Laws.encodingLength _
theorem Sys2Proof.Laws.EncodingLength.reti : Sys2Proof.Laws.EncodingLength.Statement .reti := Sys2Proof.Laws.encodingLength _
theorem Sys2Proof.Laws.EncodingLength.call (src : Ref) : Sys2Proof.Laws.EncodingLength.Statement (.call src) := Sys2Proof.Laws.encodingLength _
theorem Sys2Proof.Laws.EncodingLength.bptr (src des : Ref) : Sys2Proof.Laws.EncodingLength.Statement (.bptr src des) := Sys2Proof.Laws.encodingLength _
theorem Sys2Proof.Laws.EncodingLength.cvlw (src des : Ref) : Sys2Proof.Laws.EncodingLength.Statement (.cvlw src des) := Sys2Proof.Laws.encodingLength _
theorem Sys2Proof.Laws.EncodingLength.wait : Sys2Proof.Laws.EncodingLength.Statement .wait := Sys2Proof.Laws.encodingLength _
theorem Sys2Proof.Laws.EncodingLength.jmp (src : Ref) : Sys2Proof.Laws.EncodingLength.Statement (.jmp src) := Sys2Proof.Laws.encodingLength _
theorem Sys2Proof.Laws.EncodingLength.mova (src des : Ref) : Sys2Proof.Laws.EncodingLength.Statement (.mova src des) := Sys2Proof.Laws.encodingLength _
theorem Sys2Proof.Laws.EncodingLength.ret : Sys2Proof.Laws.EncodingLength.Statement .ret := Sys2Proof.Laws.encodingLength _
theorem Sys2Proof.Laws.EncodingLength.retp (src : Ref) : Sys2Proof.Laws.EncodingLength.Statement (.retp src) := Sys2Proof.Laws.encodingLength _
end

