-- ==== Sys2Proof/Safety.lean ====
section
/-! DEFINITION. The terms statements are written in: the invariant, the states in which an instruction is undisturbed,
what "this instruction computes that" means whatever its references are, and what an instruction may change. -/

namespace Sys2Proof.Machine

open Sys2Proof

/-! ## Good states -/

/-- The invariant of the machine: memory is in canonical form (20_memory.md R80), and every channel address and count
is even (46_io.md R455). -/
structure State.Inv (s : State) : Prop where
  mem : s.mem.wf = true
  inp : ∀ i, (s.inPort i).address.getLsbD 0 = false ∧ (s.inPort i).count.getLsbD 0 = false
  out : ∀ i, (s.outPort i).address.getLsbD 0 = false ∧ (s.outPort i).count.getLsbD 0 = false

/-- Nothing waits to be taken at an instruction's end: no agent moves before the selection, tracing is off, no
uncorrectable error is pending and no asynchronous condition is present and enabled (60_exceptions.md R497, R498 items
3 to 5). -/
def State.Settled (s : State) : Prop := s.bus = [] ∧ s.ps.eT = false ∧ s.ueLatch = none ∧ asyncNumber s = none

/-- Integer Overflow is delivered as interrupt 3 (60_exceptions.md R497). -/
def State.ivEnabled (s : State) : Bool := s.ps.eIV && s.ps.eIE

/-- Inexact Result is delivered as interrupt 5 (60_exceptions.md R497). -/
def State.iixEnabled (s : State) : Bool := s.ps.eIIX && s.ps.eIE

/-! ## The end of an instruction -/

/-- An instruction at `pc0` that left the state `s` goes on at `next` (40_operands.md R150 step 6); where that is past
2^32 - 1, the fetch to come is an Address Error (10_state.md R24). -/
def State.onward (s : State) (pc0 next : Word) : State :=
  { s with pc := next, pastEnd := wraps pc0 next }.noteExecuted pc0

/-- An instruction at `pc0` that left the state `s` transfers control to `target`. -/
def State.jumpTo (s : State) (pc0 target : Word) : State :=
  ({ s with pc := target, pastEnd := false }.noteExecuted pc0).noteTransfer pc0 target

/-- The state with another Program Status. -/
def State.withPs (s : State) (p : PsReg) : State := { s with ps := p }

/-- A repeat is in effect and lets the next instruction run: the Z condition holds and the count is not `last`
(44_control.md R401; R403, whose other order finds a count of one to be the last). -/
def State.Repeats (s : State) (last : Word) : Prop :=
  s.ps.rep ≠ 0 ∧ (s.ps.rep = 2 → s.ps.fZ = true) ∧ (s.ps.rep = 3 → s.ps.fZ = false) ∧ s.reg s.ps.repIndex ≠ last

/-- The instruction is executed: no repeat is in effect, or one is that lets it run and whose count register it does not
name (44_control.md R401, R404). -/
def Runs (i : Instr) (s : State) : Prop :=
  s.ps.rep = 0 ∨ (s.Repeats 0 ∧ namesRegister s.ps.repIndex i = false)

/-- The instruction that found the state `s` and left the state `t` goes on at the next one; under a repeat the count goes
down and it is the next one itself (44_control.md R402). -/
def State.goesOn (t : State) (i : Instr) (s : State) : State :=
  if s.ps.rep = 0 then t.onward s.pc (pcNext i s) else (t.onward s.pc s.pc).countDown s.ps.repIndex

/-- JMP, a conditional branch, CALL, RET or RETP is executed under a repeat (44_control.md R403): under test-then-decrement
the count is not zero, under decrement-then-test it is not one. -/
def State.BranchRuns (s : State) (i : Instr) : Prop :=
  s.Repeats (if s.cfg.repBranch = .testThenDecrement then 0 else 1) ∧ namesRegister s.ps.repIndex i = false

/-- The state in which a branch under a repeat is executed: the count has gone down and PS.REP is clear (44_control.md
R403). -/
def State.looped (s : State) : State := (s.countDown s.ps.repIndex).clearRep

/-- The step ends by taking interrupt `n` in state `s` with address `a` pushed (60_exceptions.md R500). -/
def takes (n : Nat) (a : Word) (s : State) : Host.Outcome State Fault Refusal := entryOutcome n (enter n a s)

/-! ## What an instruction may change -/

/-- Evaluating the reference writes register `n` (R164 to R167). -/
def Ref.moves (n : Fin 16) : Ref → Bool
  | .autoSkip m => m == n
  | .autoInc m => m == n
  | .autoIncInd m => m == n
  | .autoDec m => m == n
  | _ => false

/-- Storing through the reference writes register `n` (R160). -/
def Ref.stores (k : RefKind) (n : Fin 16) (r : Ref) : Bool :=
  match k, r with
  | .dest t, .reg m => m == n || (t == .l && m + 1 == n)
  | _, _ => false

/-- The instruction may write register `n` through its references. -/
def mayWrite (i : Instr) (n : Fin 16) : Bool :=
  i.parts.refs.any (fun p => Ref.moves n p.2 || Ref.stores p.1 n p.2)

/-- The byte at `x` is one of those that storing an operand of type `t` at location `l` writes, `sp` being the stack
pointer afterwards. -/
def storesByte (t : OpType) (l : Loc) (sp : Word) (x : Nat) : Prop :=
  match l with
  | .mem a => a.toNat ≤ x ∧ x < a.toNat + t.len
  | .push => sp.toNat ≤ x ∧ x < sp.toNat + t.len
  | _ => False

/-- The registers that no operand, flag or store touches are as they were. -/
structure SameBeside (s t : State) : Prop where
  fr : t.fr = s.fr
  cr : t.cr = s.cr
  pi : t.pi = s.pi
  tr : t.tr = s.tr
  oe : t.oe = s.oe
  ie : t.ie = s.ie
  inp : t.inp = s.inp
  out : t.out = s.out
  errorFlag : t.errorFlag = s.errorFlag
  ceLatch : t.ceLatch = s.ceLatch
  ueLatch : t.ueLatch = s.ueLatch
  ueActive : t.ueActive = s.ueActive
  idle : t.idle = s.idle
  events : t.events = s.events
  bus : t.bus = s.bus
  hostReads : t.hostReads = s.hostReads
  free : t.free = s.free
  cfg : t.cfg = s.cfg

/-- What an instruction with references src and des, whose result goes to location `l` as type `td`, leaves as it was:
every register no reference of it moves or is stored through, every special register, channel and latch, SP where no
operand is in stack mode, and every byte it does not store. -/
structure Framed (td : OpType) (src des : Ref) (l : Loc) (s t : State) : Prop where
  beside : SameBeside s t
  sp : src ≠ .stk → l ≠ .push → t.sp = s.sp
  regs : ∀ n, Ref.moves n src = false → Ref.moves n des = false → Ref.stores (.dest td) n des = false →
    t.reg n = s.reg n
  mem : s.mem.wf = true → ∀ x, ¬ storesByte td l t.sp x → t.mem.read x = s.mem.read x

/-- As `Framed` for an instruction that stores nothing: no byte of memory changes, and only moved registers do. -/
structure FramedLook (src des : Ref) (s t : State) : Prop where
  beside : SameBeside s t
  sp : src ≠ .stk → t.sp = s.sp
  regs : ∀ n, Ref.moves n src = false → Ref.moves n des = false → t.reg n = s.reg n
  mem : t.mem = s.mem

/-! ## Results, whatever the references are

In each of these the references evaluate to `l₁` and `l₂` and leave `s₁` (R150, R151); reading the operands, one after
the other and each with the agents moving before its accesses (20_memory.md R86, R99), gives `a` and `b` and leaves
`s₂` and `s₃`; and, where a result is stored, storing it leaves `s₄`, in which nothing waits to be taken. An operand that
moved SP leaves it at or above 2048. They hold under a repeat too, which counts down where the instruction completes,
an exception signalled after its result being stored included, and not where one suppresses the result (44_control.md
R402). What else is as it was is said where no agent moves within the instruction, and beside the count register. -/

/-- `mk src des` reads src and dsrc, stores `value` through des and leaves `status` in PS, where `ready` holds; all
else is as it was. -/
def Modifies (ts td : OpType) (mk : Ref → Ref → Instr) (ready : State → BitVec ts.bits → BitVec td.bits → Prop)
    (value : State → BitVec ts.bits → BitVec td.bits → BitVec td.bits)
    (status : State → BitVec ts.bits → BitVec td.bits → PsReg) : Prop :=
  ∀ (src des : Ref) (s s₁ s₂ s₃ s₄ : State) (l₁ l₂ : Loc) (a : BitVec ts.bits) (b : BitVec td.bits),
    Runs (mk src des) s → evalBoth ts td .modify src des s = .ok (l₁, l₂) s₁ → readLoc ts l₁ s₁ = .ok a s₂ →
      readLoc td l₂ s₂ = .ok b s₃ → ready s a b → writeLoc td l₂ (value s a b) s₃ = .ok () s₄ →
        (s₄.withPs (status s a b)).Settled → (src = .stk → 2048 ≤ s₄.sp.toNat) →
          exec (mk src des) s = .next ((s₄.withPs (status s a b)).goesOn (mk src des) s) ∧
            (s.bus = [] → Framed td src des l₂ s ((s₄.withPs (status s a b)).onward s.pc (pcNext (mk src des) s)))

/-- `mk src des` reads src, stores `value` through des and leaves `status` in PS, where `ready` holds; all else is as
it was. -/
def Writes (ts td : OpType) (mk : Ref → Ref → Instr) (ready : State → BitVec ts.bits → Prop)
    (value : State → BitVec ts.bits → BitVec td.bits) (status : State → BitVec ts.bits → PsReg) : Prop :=
  ∀ (src des : Ref) (s s₁ s₂ s₄ : State) (l₁ l₂ : Loc) (a : BitVec ts.bits),
    Runs (mk src des) s → evalBoth ts td .write src des s = .ok (l₁, l₂) s₁ → readLoc ts l₁ s₁ = .ok a s₂ → ready s a →
      writeLoc td l₂ (value s a) s₂ = .ok () s₄ → (s₄.withPs (status s a)).Settled →
        (src = .stk ∨ des = .stk → 2048 ≤ s₄.sp.toNat) →
          exec (mk src des) s = .next ((s₄.withPs (status s a)).goesOn (mk src des) s) ∧
            (s.bus = [] → Framed td src des l₂ s ((s₄.withPs (status s a)).onward s.pc (pcNext (mk src des) s)))

/-- `mk src des` reads src and dsrc, stores nothing and leaves `status` in PS; all else is as it was. -/
def Compares (t : OpType) (mk : Ref → Ref → Instr) (status : State → BitVec t.bits → BitVec t.bits → PsReg) : Prop :=
  ∀ (src des : Ref) (s s₁ s₂ s₃ : State) (l₁ l₂ : Loc) (a b : BitVec t.bits),
    Runs (mk src des) s → evalBoth t t .look src des s = .ok (l₁, l₂) s₁ → readLoc t l₁ s₁ = .ok a s₂ →
      readLoc t l₂ s₂ = .ok b s₃ → (s₃.withPs (status s a b)).Settled → (src = .stk → 2048 ≤ s₃.sp.toNat) →
        exec (mk src des) s = .next ((s₃.withPs (status s a b)).goesOn (mk src des) s) ∧
          (s.bus = [] → FramedLook src des s ((s₃.withPs (status s a b)).onward s.pc (pcNext (mk src des) s)))

/-- FR as an exception leaves it: written where the exception is a floating-point one (60_exceptions.md R519). -/
def State.withFr (s : State) (fr : Option FrFields) : State :=
  match fr with
  | some f => s.setFr f
  | none => s

/-- `mk src des` reads src and dsrc and, where `when` holds, stores nothing and takes interrupt `n` with `pc0` pushed,
PS being `status` and FR holding `fr`, whatever else waits. -/
def ModifyRaises (ts td : OpType) (mk : Ref → Ref → Instr) (n : Nat)
    (when : State → BitVec ts.bits → BitVec td.bits → Prop) (status : State → BitVec ts.bits → BitVec td.bits → PsReg)
    (fr : BitVec ts.bits → BitVec td.bits → Option FrFields) : Prop :=
  ∀ (src des : Ref) (s s₁ s₂ s₃ : State) (l₁ l₂ : Loc) (a : BitVec ts.bits) (b : BitVec td.bits),
    Runs (mk src des) s → evalBoth ts td .modify src des s = .ok (l₁, l₂) s₁ → readLoc ts l₁ s₁ = .ok a s₂ →
      readLoc td l₂ s₂ = .ok b s₃ → when s a b →
        exec (mk src des) s = takes n s.pc (((s₃.withPs (status s a b)).withFr (fr a b)).noteExecuted s.pc)

/-- As `ModifyRaises` for an instruction that reads src only. -/
def WriteRaises (ts td : OpType) (mk : Ref → Ref → Instr) (n : Nat) (when : State → BitVec ts.bits → Prop)
    (status : State → BitVec ts.bits → PsReg) (fr : BitVec ts.bits → Option FrFields) : Prop :=
  ∀ (src des : Ref) (s s₁ s₂ : State) (l₁ l₂ : Loc) (a : BitVec ts.bits),
    Runs (mk src des) s → evalBoth ts td .write src des s = .ok (l₁, l₂) s₁ → readLoc ts l₁ s₁ = .ok a s₂ → when s a →
      exec (mk src des) s = takes n s.pc (((s₂.withPs (status s a)).withFr (fr a)).noteExecuted s.pc)

/-- `mk src des` reads src and dsrc, stores `value` through des and then, where `when` holds, takes interrupt `n` with
`pc0` pushed, PS being `status` and FR holding `fr`, whatever else waits. -/
def ModifySignals (ts td : OpType) (mk : Ref → Ref → Instr) (n : Nat)
    (when : State → BitVec ts.bits → BitVec td.bits → Prop)
    (value : State → BitVec ts.bits → BitVec td.bits → BitVec td.bits)
    (status : State → BitVec ts.bits → BitVec td.bits → PsReg)
    (fr : BitVec ts.bits → BitVec td.bits → Option FrFields) : Prop :=
  ∀ (src des : Ref) (s s₁ s₂ s₃ s₄ : State) (l₁ l₂ : Loc) (a : BitVec ts.bits) (b : BitVec td.bits),
    Runs (mk src des) s → evalBoth ts td .modify src des s = .ok (l₁, l₂) s₁ → readLoc ts l₁ s₁ = .ok a s₂ →
      readLoc td l₂ s₂ = .ok b s₃ → when s a b → writeLoc td l₂ (value s a b) s₃ = .ok () s₄ → s₄.bus = [] →
        (src = .stk → 2048 ≤ s₄.sp.toNat) →
          exec (mk src des) s =
            takes n s.pc (((s₄.withPs (status s a b)).goesOn (mk src des) s).withFr (fr a b))

/-- As `ModifySignals` for an instruction that reads src only. -/
def WriteSignals (ts td : OpType) (mk : Ref → Ref → Instr) (n : Nat) (when : State → BitVec ts.bits → Prop)
    (value : State → BitVec ts.bits → BitVec td.bits) (status : State → BitVec ts.bits → PsReg)
    (fr : BitVec ts.bits → Option FrFields) : Prop :=
  ∀ (src des : Ref) (s s₁ s₂ s₄ : State) (l₁ l₂ : Loc) (a : BitVec ts.bits),
    Runs (mk src des) s → evalBoth ts td .write src des s = .ok (l₁, l₂) s₁ → readLoc ts l₁ s₁ = .ok a s₂ → when s a →
      writeLoc td l₂ (value s a) s₂ = .ok () s₄ → s₄.bus = [] → (src = .stk ∨ des = .stk → 2048 ≤ s₄.sp.toNat) →
        exec (mk src des) s =
          takes n s.pc (((s₄.withPs (status s a)).goesOn (mk src des) s).withFr (fr a))

/-- `mk src des` reads src and dsrc, at least src in stack mode, stores `value` through des and, where SP is then below
2048, takes interrupt 12 with `pc0` pushed before whatever else waits, PS being `status` (60_exceptions.md R493, R498
item 2). -/
def ModifyOverflows (ts td : OpType) (mk : Ref → Ref → Instr)
    (value : State → BitVec ts.bits → BitVec td.bits → BitVec td.bits)
    (status : State → BitVec ts.bits → BitVec td.bits → PsReg) : Prop :=
  ∀ (des : Ref) (s s₁ s₂ s₃ s₄ : State) (l₁ l₂ : Loc) (a : BitVec ts.bits) (b : BitVec td.bits),
    Runs (mk .stk des) s → evalBoth ts td .modify .stk des s = .ok (l₁, l₂) s₁ → readLoc ts l₁ s₁ = .ok a s₂ →
      readLoc td l₂ s₂ = .ok b s₃ → writeLoc td l₂ (value s a b) s₃ = .ok () s₄ → s₄.bus = [] →
        s₄.sp.toNat < 2048 →
          exec (mk .stk des) s = takes 12 s.pc ((s₄.withPs (status s a b)).goesOn (mk .stk des) s)

/-- As `ModifyOverflows` for an instruction that only writes des, either operand being in stack mode. -/
def WriteOverflows (ts td : OpType) (mk : Ref → Ref → Instr) (value : State → BitVec ts.bits → BitVec td.bits)
    (status : State → BitVec ts.bits → PsReg) : Prop :=
  ∀ (src des : Ref) (s s₁ s₂ s₄ : State) (l₁ l₂ : Loc) (a : BitVec ts.bits),
    Runs (mk src des) s → src = .stk ∨ des = .stk → evalBoth ts td .write src des s = .ok (l₁, l₂) s₁ →
      readLoc ts l₁ s₁ = .ok a s₂ → writeLoc td l₂ (value s a) s₂ = .ok () s₄ → s₄.bus = [] →
        s₄.sp.toNat < 2048 →
          exec (mk src des) s = takes 12 s.pc ((s₄.withPs (status s a)).goesOn (mk src des) s)

/-- As `ModifyOverflows` for an instruction that stores nothing. -/
def CompareOverflows (t : OpType) (mk : Ref → Ref → Instr)
    (status : State → BitVec t.bits → BitVec t.bits → PsReg) : Prop :=
  ∀ (des : Ref) (s s₁ s₂ s₃ : State) (l₁ l₂ : Loc) (a b : BitVec t.bits),
    Runs (mk .stk des) s → evalBoth t t .look .stk des s = .ok (l₁, l₂) s₁ → readLoc t l₁ s₁ = .ok a s₂ →
      readLoc t l₂ s₂ = .ok b s₃ → s₃.bus = [] → s₃.sp.toNat < 2048 →
        exec (mk .stk des) s = takes 12 s.pc ((s₃.withPs (status s a b)).goesOn (mk .stk des) s)

/-! ## Real arithmetic by instruction -/

/-- The operation of each real arithmetic instruction on the values of src and dsrc. -/
def realOperations : List (OpType × (Ref → Ref → Instr) × (Fmt → Nat → BitVec 2 → FVal → FVal → FpOut)) :=
  [(.r, .addr, fun f w rc x y => f.add w rc x y), (.l, .addl, fun f w rc x y => f.add w rc x y),
    (.r, .subr, fun f w rc x y => f.add w rc y x.neg), (.l, .subl, fun f w rc x y => f.add w rc y x.neg),
    (.r, .sbrr, fun f w rc x y => f.add w rc x y.neg), (.l, .sbrl, fun f w rc x y => f.add w rc x y.neg),
    (.r, .mulr, fun f w rc x y => f.mul w rc x y), (.l, .mull, fun f w rc x y => f.mul w rc x y),
    (.r, .divr, fun f w rc x y => f.div w rc y x), (.l, .divl, fun f w rc x y => f.div w rc y x),
    (.r, .dvrr, fun f w rc x y => f.div w rc x y), (.l, .dvrl, fun f w rc x y => f.div w rc x y)]

/-- What the operation of an entry of `realOperations` gives on two operand patterns in a state. -/
def realOutcome (e : OpType × (Ref → Ref → Instr) × (Fmt → Nat → BitVec 2 → FVal → FVal → FpOut)) (s : State)
    (a b : BitVec e.1.bits) : FpOut :=
  e.2.2 (fmtOf e.1) ((fmtOf e.1).wrap s.cfg) s.ps.rc ((fmtOf e.1).value a.toNat) ((fmtOf e.1).value b.toNat)

/-! ## Branches by instruction -/

/-- JMP and the conditional branches, each with whether it is a signed one and the condition of the flags under which it is
taken (44_control.md R370, R371, R373 to R385). -/
def branchTable : List ((Ref → Instr) × Bool × (PsReg → Bool)) :=
  [(.jmp, false, fun _ => true), (.bv, false, fun q => q.fV), (.bnv, false, fun q => !q.fV), (.be, false, fun q => q.fZ),
    (.bne, false, fun q => !q.fZ), (.bg, true, fun q => !(q.fN || q.fZ)), (.bge, true, fun q => !q.fN),
    (.bl, true, fun q => q.fN), (.ble, true, fun q => q.fN || q.fZ), (.bgu, false, fun q => !(q.fC || q.fZ) || q.fU),
    (.bgeu, false, fun q => !q.fC || q.fU), (.blu, false, fun q => q.fC || q.fU),
    (.bleu, false, fun q => q.fC || q.fZ || q.fU)]

/-! ## Runs and fairness -/

/-- What the environment of a node chooses for each of its steps: who moves, and who moves within an instruction. -/
structure Schedule where
  turn : Nat → Event
  within : Nat → List (List Event)

/-- `run` is a run of a node under a schedule (46_io.md R450): each state is what a step makes of the one before it with the
schedule's choice for that step. -/
def Schedule.Runs (c : Schedule) (run : Nat → State) : Prop :=
  ∀ n, step { run n with events := [c.turn n], bus := c.within n } = .next (run (n + 1))

/-- The step of the agent that an event stands for is enabled (46_io.md R451, R452, R467; 60_exceptions.md R513): the
processor's always, the tick's where TR is not zero, a peer's where the link has a halfword. An arrival, an ECC error and an
access of the host are never due. -/
def Event.enabled (s : State) : Event → Bool
  | .cpu => true
  | .tick => s.tr != 0
  | .store p => storeEnabled s p
  | .send p => sendEnabled s p
  | .broadcast =>
    match broadcastGroup s with
    | [] => false
    | i :: rest => (s.outPort i).count != 0 && (i :: rest).all (linkRoom s)
  | .deliver p => !(s.outPort p).link.isEmpty
  | .arrive _ _ _ => false
  | .correctedEcc => false
  | .uncorrectable _ _ => false
  | .hostWrite _ _ => false
  | .hostRead _ => false

/-- The event moves in step `n` of a run: it is the step, or one of those that moved within the instruction, whose turns are
the ones that the step has taken off the schedule's list. -/
def Schedule.Moves (c : Schedule) (run : Nat → State) (n : Nat) (e : Event) : Prop :=
  c.turn n = e ∨ ∃ es ∈ (c.within n).take ((c.within n).length - (run (n + 1)).bus.length), e ∈ es

/-- The schedule is weakly fair to every agent of the node (46_io.md R450, 60_exceptions.md R513): a step that stays
enabled from some point on is taken at or after it. -/
def Schedule.Fair (c : Schedule) (run : Nat → State) : Prop :=
  ∀ (e : Event) (n : Nat), (∀ m, n ≤ m → e.enabled (run m) = true) → ∃ m, n ≤ m ∧ c.Moves run m e

/-! ## Exact values -/

/-- The number a finite value denotes (43_float.md R301); 0 for the others. -/
def FVal.rat : FVal → ℚ
  | .fin neg m e => (if neg then -1 else 1) * (m : ℚ) * (2 : ℚ) ^ e
  | _ => 0

/-- `q * 2 ^ e`, or, where `sticky` is set, some number strictly between it and `(q + 1) * 2 ^ e` with `q` of at least
two bits more than `p`, is the positive number `x`: what `roundSig` is asked about. -/
def Stands (p q : Nat) (e : Int) (sticky : Bool) (x : ℚ) : Prop :=
  q ≠ 0 ∧
    if sticky then (q : ℚ) * 2 ^ e < x ∧ x < ((q : ℚ) + 1) * 2 ^ e ∧ 2 ^ (p + 1) ≤ q else x = (q : ℚ) * 2 ^ e

/-- `r` is the positive number `x`, of sign `neg`, rounded to `p` bits by RC (43_float.md R305): with `t * 2 ^ k` what
its leading `p` bits give, guard says that half a unit or more was dropped and rest that something beside a half or
nothing was (R313); the magnitude goes up to nearest past the half or at it from an odd `t`, upward for a positive and
downward for a negative number wherever something was dropped, and never toward zero. -/
def RoundsTo (p : Nat) (rc : BitVec 2) (neg : Bool) (x : ℚ) (r : Rounded) : Prop :=
  ∃ (t : Nat) (k : Int),
    2 ^ (p - 1) ≤ t ∧ t < 2 ^ p ∧ (t : ℚ) * 2 ^ k ≤ x ∧ x < ((t : ℚ) + 1) * 2 ^ k ∧
      (r.guard = true ↔ (2 * (t : ℚ) + 1) * 2 ^ k ≤ 2 * x) ∧
      (r.rest = true ↔ x ≠ (t : ℚ) * 2 ^ k ∧ 2 * x ≠ (2 * (t : ℚ) + 1) * 2 ^ k) ∧
      (r.up = true ↔
        (rc = 0 ∧ ((2 * (t : ℚ) + 1) * 2 ^ k < 2 * x ∨ ((2 * (t : ℚ) + 1) * 2 ^ k = 2 * x ∧ t % 2 = 1))) ∨
          (rc = 1 ∧ neg = false ∧ x ≠ (t : ℚ) * 2 ^ k) ∨ (rc = 2 ∧ neg = true ∧ x ≠ (t : ℚ) * 2 ^ k)) ∧
      (r.sig : ℚ) * 2 ^ r.exp = (if r.up then (t : ℚ) + 1 else t) * 2 ^ k ∧ 2 ^ (p - 1) ≤ r.sig ∧ r.sig < 2 ^ p

/-! ## Small words of the statements -/

/-- The value of two packed decimal digits (R242). -/
def decimal (a : Byte) : Nat := 10 * (a.toNat / 16) + a.toNat % 16

/-- Both nibbles are decimal digits (R242). -/
def isDecimal (a : Byte) : Prop := a.toNat / 16 < 10 ∧ a.toNat % 16 < 10

/-- A number below 100 as two packed decimal digits (R242). -/
def ofDecimal (n : Nat) : Byte := BitVec.ofNat 8 (16 * (n / 10) + n % 10)

/-- The sign bit of a word of width `w`. -/
def signBit (w : Nat) : BitVec w := BitVec.twoPow w (w - 1)

/-- The instruction is one of those for which a repeat counts before it runs: JMP, the conditional branches, CALL, RET
and RETP (44_control.md R403). -/
def isBranch : Instr → Bool
  | .jmp _ => true
  | .bv _ => true
  | .bnv _ => true
  | .be _ => true
  | .bne _ => true
  | .bg _ => true
  | .bge _ => true
  | .bl _ => true
  | .ble _ => true
  | .bgu _ => true
  | .bgeu _ => true
  | .blu _ => true
  | .bleu _ => true
  | .call _ => true
  | .ret => true
  | .retp _ => true
  | _ => false

end Sys2Proof.Machine
end

