-- ==== Sys2Proof/Certificates/Slice0/Obligations.lean ====
section
/-! DEFINITION. The statements about the model, for the provers. Each instruction statement holds for every form of its
references: the references enter through their evaluation, which `EvaluatedModes`, `OperandFrame`, `StackModes` and
`OperandErrors` say mode by mode. The statements whose premise is `Runs` and whose state is `State.goesOn` hold under a
repeat that goes on as well, which counts down and comes back to the instruction (44_control.md R402). -/

open Sys2Proof Sys2Proof.Machine

/-! ## Reset, fetch, encoding -/

/-- What reset leaves (70_reset_and_hazards.md R621), beside SP, FR, the first pc, memory above 2048, MODEL NUMBER and bit
31 of PI, which the source leaves open and logs 1, 2, 3, 4 and 25 choose. That the images of CR and of the ready
registers are these numbers rests on the launch defaults of log 5, and that the links are empty on log 28; Idle, the
instruction buffer, the mark of a pc past the last address, the schedules and the counter of free values are the model's
own (logs 14, 13, 9, 10 and 7). -/
def Obligations.ResetState : Prop :=
  (∀ n, State.reset.reg n = 0) ∧ State.reset.ps.toWord State.reset.cfg = 0 ∧
    State.reset.cr.extractLsb' 0 24 = 4 ∧ State.reset.pi.extractLsb' 0 31 = 0 ∧ State.reset.tr = 0 ∧
    State.reset.readyOut = 0x800003FF ∧ State.reset.readyIn = 0x800003FF ∧
    State.reset.oe = 0 ∧ State.reset.ie = 0 ∧
    State.reset.pendingIn = 0 ∧ State.reset.parityIn = 0 ∧ State.reset.overrunIn = 0 ∧
    (∀ i, State.reset.inPort i = ⟨0, 0, 0, false, false, false⟩) ∧ (∀ i, State.reset.outPort i = ⟨0, 0, false, []⟩) ∧
    State.reset.errorFlag = true ∧ State.reset.ceLatch = false ∧ State.reset.ueLatch = none ∧
    State.reset.ueActive = false ∧ State.reset.idle = false ∧ State.reset.fetch = ⟨[], [], []⟩ ∧
    State.reset.pastEnd = false ∧ State.reset.events = [] ∧ State.reset.bus = [] ∧ State.reset.free = 0 ∧
    State.reset.mem.readN 0 4 = 1 ∧ (∀ a, 4 ≤ a → a ≤ 2048 → State.reset.mem.read a = 0)

/-- The invariant of `InvariantKept` holds after reset. -/
def Obligations.ResetInvariant : Prop := State.reset.Inv

/-- A step of a processor that is not Idle runs the instruction that the bytes at pc decode to, when it is the
processor's turn, pc has not passed the last address, in which case `OperandErrors` says what happens, and no byte that is
fetched first is suspect: the opcode and REFERENCE 1, as MOVW shows, and every byte of an instruction that a repeat skips
(R150, R100). -/
def Obligations.StepRunsDecoded : Prop :=
  (∀ (s : State) (i : Instr) (rest : List Byte), s.idle = false → s.pastEnd = false →
    decode s.cfg (fetchBytes s) = .ok (i, rest) → staleByte s (fetchedFirst i s) = none →
      (s.events = [] → step s = exec i s) ∧
        (∀ es, s.events = .cpu :: es → step s = exec i { s with events := es })) ∧
    ∀ s : State, (s.ps.rep = 0 → ∀ src des, fetchedFirst (.movw src des) s = 1 + src.length (.value .w)) ∧
      (s.ps.rep ≠ 0 → repeatEnds s = true → ∀ i, fetchedFirst i s = i.length)

/-- Words written out from the spec's encodings decode to the instructions they stand for: ADDW R1,R2; MOVL #0.0 as an
immediate,(R3)+; SFTW #-1,R1; JMP -11; LCNT #30,#32; BKPT. -/
def Obligations.DecodeWords : Prop :=
  decodeTableWord 24 0xC2C144 = some (.addw (.reg 1) (.reg 2)) ∧
    decodeTableWord 88 0x630000000000000000FD0A = some (.movl (.imm 0) (.autoInc 3)) ∧
    decodeTableWord 24 0xC13F05 = some (.sftw (.lit 63) (.reg 1)) ∧
    decodeTableWord 16 0x35DF = some (.jmp (.lit 53)) ∧
    decodeTableWord 32 0x20FD1EA5 = some (.lcnt (.lit 30) (.imm 32)) ∧
    decodeTableWord 8 0x6B = some .bkpt ∧ decodeTableWord 8 0x06 = none

/-- Decoding the encoding of an instruction gives the instruction back, with every operand at every value its bytes
admit, whatever follows and whatever the encoding parameters. -/
def Obligations.DecodeEncode : Prop :=
  ∀ (cfg : Params) (i : Instr) (rest : List Byte), i.encodable = true → decode cfg (encode cfg i ++ rest) = .ok (i, rest)

/-- Bytes that decode to an encodable instruction are its encoding: no two readings of one byte string. -/
def Obligations.EncodeDecode : Prop :=
  ∀ (cfg : Params) (bs rest : List Byte) (i : Instr), decode cfg bs = .ok (i, rest) → i.encodable = true →
    encode cfg i ++ rest = bs

/-- The 114 reserved opcodes are the cells the opcode map does not name (R122), and one at pc takes interrupt 10 with the
opcode's address pushed, whatever bytes follow it. -/
def Obligations.ReservedOpcodes : Prop :=
  (∀ b : Byte, lookupOpcode b opcodeMap = none ↔
    b.toNat % 16 ∈ [6, 7, 12, 13] ∨ b.toNat / 16 = 15 ∨ (b.toNat % 16 = 14 ∧ (b.toNat / 16 = 0 ∨ 5 ≤ b.toNat / 16)) ∨
      (b.toNat % 16 = 11 ∧ b.toNat / 16 ∈ [10, 11]) ∨ (b.toNat % 16 = 9 ∧ b.toNat / 16 = 14) ∨
      (b.toNat % 16 = 3 ∧ 8 ≤ b.toNat / 16) ∨ (b.toNat % 16 = 1 ∧ 10 ≤ b.toNat / 16) ∨
      (b.toNat % 16 ∈ [0, 2, 4] ∧ 13 ≤ b.toNat / 16) ∨ (b.toNat % 16 ∈ [8, 10] ∧ 12 ≤ b.toNat / 16)) ∧
    ((List.range 256).filter (fun b => (lookupOpcode (BitVec.ofNat 8 b) opcodeMap).isNone)).length = 114 ∧
    ∀ (s : State) (b : Byte) (rest : List Byte), s.idle = false → s.pastEnd = false → s.events = [] → s.cfg.divRows = .opcodeMap →
      fetchBytes s = b :: rest → lookupOpcode b opcodeMap = none → staleByte s 1 = none →
        step s = takes 10 s.pc (s.noteExecuted s.pc)

/-! ## What every step keeps -/

/-- Every step of the node, of the processor or of a channel, keeps memory canonical and every channel address and
count even, in every state, reached or not. -/
def Obligations.InvariantKept : Prop := ∀ s t : State, s.Inv → step s = .next t → t.Inv

/-- Who changes what: CR, PI, OE and IE are changed by LDPR only, whatever the agents do meanwhile; and, where none moves
within the instruction, TR by LDPR only, the channel registers by LPTR, LCNT, BPTR, BCNT and RSET only, the Error flag
by ERON and EROF only, and no instruction changes what is on a link. -/
def Obligations.WhoChangesWhat : Prop :=
  ∀ (i : Instr) (s t : State), exec i s = .next t →
    ((∀ src des, i ≠ .ldpr src des) → t.cr = s.cr ∧ t.pi = s.pi ∧ t.oe = s.oe ∧ t.ie = s.ie) ∧
      (s.bus = [] →
        ((∀ src des, i ≠ .ldpr src des) → t.tr = s.tr) ∧
          ((∀ src des, i ≠ .lptr src des ∧ i ≠ .lcnt src des ∧ i ≠ .bptr src des ∧ i ≠ .bcnt src des) → i ≠ .rset →
            t.inp = s.inp ∧ t.out = s.out) ∧
          (i ≠ .eron → i ≠ .erof → t.errorFlag = s.errorFlag) ∧
          (∀ p, (t.outPort p).link = (s.outPort p).link))

/-- An instruction writes no General register but the ones its references move or store through and the count register
of a repeat in effect, whatever the agents do meanwhile and whatever interrupt is taken at its end, where no
uncorrectable error is pending or falls within it. -/
def Obligations.RegisterFrame : Prop :=
  ∀ (i : Instr) (s t : State) (n : Fin 16), exec i s = .next t → s.ueLatch = none →
    (∀ es ∈ s.bus, ∀ e ∈ es, ∀ a k, e ≠ .uncorrectable a k) → mayWrite i n = false →
      (s.ps.rep = 0 ∨ s.ps.repIndex ≠ n) → t.reg n = s.reg n

/-- Every step keeps bits 31:24 of CR; it keeps the launch parameters, and the counter of free values drawn never goes
down (the parameters in State and the counter are the model's choices, logs 5 and 7). A step of an agent other than the
processor leaves the processor alone: of its registers only TR changes, by the tick; memory changes only by an input
channel's store or a host write, and the host's accesses change nothing on a node that no System Control Board holds (R93).
The timer tick (R38, R513) takes one from TR, stops at zero, and does nothing else. A corrected ECC error sets the latch of
interrupt 14 alone; an uncorrectable one is noted with the operand it struck, and sets the Error flag where one before it
has not been handled (R495, R516), its operand then replacing the first's, which is the model's choice (log 22, DESIGN
CHOICE); a host write stores its halfword, little-endian, in a node of a System Control Board, and is noted for the
instruction buffer; a host read of such a node (R560, R96) gives the host the halfword, little-endian, that memory then holds,
and changes nothing else (that it is kept in State until the host takes it is the model's choice, log 10, DESIGN CHOICE). -/
def Obligations.StepFrame : Prop :=
  (∀ s t : State, step s = .next t →
     t.cfg = s.cfg ∧ t.cr.extractLsb' 24 8 = s.cr.extractLsb' 24 8 ∧ s.free ≤ t.free) ∧
    (∀ (e : Event) (s t : State), agentStep e s = .next t →
      t.regs = s.regs ∧ t.pc = s.pc ∧ t.sp = s.sp ∧ t.ps = s.ps ∧ t.fr = s.fr ∧ t.cr = s.cr ∧ t.pi = s.pi ∧
        t.oe = s.oe ∧ t.ie = s.ie ∧ t.idle = s.idle ∧ t.pastEnd = s.pastEnd ∧ t.cfg = s.cfg ∧ t.free = s.free ∧ t.bus = s.bus ∧
        (e ≠ .tick → t.tr = s.tr) ∧
        ((∀ p, e ≠ .store p) → (∀ k h, e ≠ .hostWrite k h) → t.mem = s.mem) ∧
        ((∀ k, e ≠ .hostRead k) → t.hostReads = s.hostReads) ∧
        (∀ k h, e = .hostWrite k h ∨ e = .hostRead k → s.cfg.ioBoard = false → t = s)) ∧
    (∀ s : State, ∃ t, agentStep .tick s = .next t ∧ t = { s with tr := t.tr } ∧ t.tr.toNat = s.tr.toNat - 1) ∧
    (∀ s : State, agentStep .correctedEcc s = .next { s with ceLatch := true }) ∧
    (∀ (s : State) (a n : Nat), ∃ t, agentStep (.uncorrectable a n) s = .next t ∧
      t = { s with ueLatch := some (a, n), errorFlag := t.errorFlag } ∧
      (t.errorFlag = true ↔ s.errorFlag = true ∨ s.ueActive = true ∨ s.ueLatch ≠ none)) ∧
    (∀ (s : State) (k : Nat), s.cfg.ioBoard = true → 2 * k + 2 ≤ s.cfg.memSize →
      agentStep (.hostRead k) s =
        .next { s with hostReads := s.hostReads ++ [(k, s.mem.read (2 * k + 1) ++ s.mem.read (2 * k))] }) ∧
    ∀ (s : State) (k : Nat) (h : Half), s.cfg.ioBoard = true → 2 * k + 2 ≤ s.cfg.memSize → s.mem.wf = true →
      ∃ t, agentStep (.hostWrite k h) s = .next t ∧ t = { s with mem := t.mem, fetch := t.fetch } ∧
        t.mem.readN (2 * k) 2 = h.toNat ∧ (∀ x, x < 2 * k ∨ 2 * k + 2 ≤ x → t.mem.read x = s.mem.read x) ∧
        t.fetchFresh (2 * k) = false ∧ t.fetchFresh (2 * k + 1) = false

/-! ## Operands -/

/-- Register Direct (R23, R160): a Byte or Halfword fills the register sign-extended and is read from its low bits; a
Longreal fills the register and the next one, R0 after R15, the low part in the first; what is written is read back
and no other register changes. -/
def Obligations.RegisterOperands : Prop :=
  (∀ (n : Fin 16) (s : State), readReg .b n s = (s.reg n).setWidth 8 ∧ readReg .h n s = (s.reg n).setWidth 16 ∧
    readReg .w n s = s.reg n ∧ readReg .r n s = s.reg n ∧ readReg .l n s = s.reg (n + 1) ++ s.reg n) ∧
    (∀ (n : Fin 16) (v : Byte) (s : State), (writeReg .b n v s).reg n = v.signExtend 32) ∧
    (∀ (n : Fin 16) (v : Half) (s : State), (writeReg .h n v s).reg n = v.signExtend 32) ∧
    (∀ (n : Fin 16) (v : Word) (s : State), (writeReg .w n v s).reg n = v ∧ (writeReg .r n v s).reg n = v) ∧
    (∀ (n : Fin 16) (v : BitVec 64) (s : State),
      (writeReg .l n v s).reg n = v.extractLsb' 0 32 ∧ (writeReg .l n v s).reg (n + 1) = v.extractLsb' 32 32) ∧
    (∀ (t : OpType) (n : Fin 16) (v : BitVec t.bits) (s : State), readReg t n (writeReg t n v s) = v) ∧
    ∀ (t : OpType) (n m : Fin 16) (v : BitVec t.bits) (s : State), Ref.stores (.dest t) m (.reg n) = false →
      (writeReg t n v s).reg m = s.reg m

/-- The location each mode gives and the register it moves (R160 to R175): in these forms the effective address is in
range and the pointer of an indirect mode can be read (`OperandStorage` says when an access is present), no agent
moving meanwhile. Of an instruction with two references the second is evaluated after the first, in the state that
leaves, with the value of SP from the start of the instruction, where its bytes can be fetched (R150, R151, R152;
`Refused` says what happens where they cannot). A literal (R161) is its 6-bit signed value, as an integer operand of
any length and exactly as a real one; an immediate (R162), where it is read and not an address, is the low bits of its
field. -/
def Obligations.EvaluatedModes : Prop :=
  (∀ k : BitVec 6,
     (literalValue .b k).toInt = k.toInt ∧ (literalValue .h k).toInt = k.toInt ∧ (literalValue .w k).toInt = k.toInt ∧
       ((Fmt.value .real (literalValue .r k).toNat).eq (.fin k.msb k.toInt.natAbs 0)) = true ∧
       ((Fmt.value .long (literalValue .l k).toNat).eq (.fin k.msb k.toInt.natAbs 0)) = true) ∧
    (∀ role ∈ [Role.src, .look], ∀ (t : OpType) (sp0 w : Word) (s : State),
      (∀ k, evalRef role t.len sp0 w (.lit k) s = .ok (.lit k) s ∧ readLoc t (.lit k) s = .ok (literalValue t k) s) ∧
        ∀ v, evalRef role t.len sp0 w (.imm v) s = .ok (.imm v) s ∧ readLoc t (.imm v) s = .ok (v.setWidth t.bits) s) ∧
    (∀ (role : Role) (len : Nat) (sp0 w : Word) (s : State) (n : Fin 16),
      evalRef role len sp0 w (.reg n) s = .ok (.reg n) s ∧
        evalRef role len sp0 w (.ind n) s = .ok (.mem (s.reg n)) s ∧
        evalRef role len sp0 w (.autoSkip n) s = .ok (.mem (s.reg n)) (s.setReg n (s.reg n + s.reg (n + 1))) ∧
        evalRef role len sp0 w (.autoInc n) s = .ok (.mem (s.reg n)) (s.setReg n (s.reg n + BitVec.ofNat 32 len)) ∧
        evalRef role len sp0 w (.autoDec n) s =
          .ok (.mem (s.reg n - BitVec.ofNat 32 len)) (s.setReg n (s.reg n - BitVec.ofNat 32 len)) ∧
        (s.bus = [] → checkAccess s.cfg.memSize (s.reg n).toNat 4 = .present →
          evalRef role len sp0 w (.autoIncInd n) s =
            .ok (.mem (BitVec.ofNat 32 (s.mem.readN (s.reg n).toNat 4))) (s.setReg n (s.reg n + 4))) ∧
        (∀ (base : Word) (r : BitVec 32 → Ref),
          (base, r) ∈ [(s.reg n, Ref.offW n), (s.pc, Ref.pcW), (sp0, Ref.spW)] → ∀ off : BitVec 32,
            0 ≤ (base.toNat : Int) + off.toInt → (base.toNat : Int) + off.toInt < 2 ^ 32 →
              evalRef role len sp0 w (r off) s = .ok (.mem (base + off)) s) ∧
        (∀ (base : Word) (r : BitVec 16 → Ref),
          (base, r) ∈ [(s.reg n, Ref.offH n), (s.pc, Ref.pcH), (sp0, Ref.spH)] → ∀ off : BitVec 16,
            0 ≤ (base.toNat : Int) + off.toInt → (base.toNat : Int) + off.toInt < 2 ^ 32 →
              evalRef role len sp0 w (r off) s = .ok (.mem (base + off.signExtend 32)) s) ∧
        (∀ (base : Word) (r : BitVec 8 → Ref),
          (base, r) ∈ [(s.reg n, Ref.offB n), (s.pc, Ref.pcB), (sp0, Ref.spB)] → ∀ off : BitVec 8,
            0 ≤ (base.toNat : Int) + off.toInt → (base.toNat : Int) + off.toInt < 2 ^ 32 →
              evalRef role len sp0 w (r off) s = .ok (.mem (base + off.signExtend 32)) s) ∧
        (∀ (base : Word) (r : BitVec 32 → Ref),
          (base, r) ∈ [(s.reg n, Ref.offInd n), (s.pc, Ref.pcInd), (sp0, Ref.spInd)] → ∀ off : BitVec 32,
            0 ≤ (base.toNat : Int) + off.toInt → (base.toNat : Int) + off.toInt < 2 ^ 32 →
              s.bus = [] → checkAccess s.cfg.memSize (base + off).toNat 4 = .present →
                evalRef role len sp0 w (r off) s = .ok (.mem (BitVec.ofNat 32 (s.mem.readN (base + off).toNat 4))) s) ∧
        (∀ a, evalRef role len sp0 w (.dirB a) s = .ok (.mem (a.setWidth 32)) s) ∧
        (∀ a, evalRef role len sp0 w (.dirH a) s = .ok (.mem (a.setWidth 32)) s) ∧
        (∀ a, evalRef role len sp0 w (.dirW a) s = .ok (.mem a) s) ∧
        (∀ a : Word, s.bus = [] → checkAccess s.cfg.memSize a.toNat 4 = .present →
          evalRef role len sp0 w (.dirInd a) s = .ok (.mem (BitVec.ofNat 32 (s.mem.readN a.toNat 4))) s)) ∧
    (∀ (role : Role) (k₁ k₂ : RefKind) (sp0 : Word) (src des : Ref) (s : State),
      (∀ a, s.pc.toNat + 1 + src.length k₁ ≤ a → a < s.pc.toNat + 1 + src.length k₁ + des.length k₂ →
        s.fetchFresh a = true) →
        evalSecond role k₁ k₂ sp0 src des s =
          evalRef role k₂.len sp0 (s.pc + 2 + BitVec.ofNat 32 (src.length k₁)) des s) ∧
    ∀ (ts td : OpType) (role : Role) (src des : Ref) (s s₁ s₂ : State) (l₁ l₂ : Loc),
      evalRef .src ts.len s.sp (s.pc + 2) src s = .ok l₁ s₁ →
        evalSecond role (.value ts) (.value td) s.sp src des s₁ = .ok l₂ s₂ →
          evalBoth ts td role src des s = .ok (l₁, l₂) s₂

/-- Evaluating a reference changes only the register its mode moves, and SP where stack mode pops, of what no other agent
writes; and where none moves meanwhile it changes nothing else at all. That a stack-mode destination that is only written
leaves SP here and moves it with its store is the model's choice (log 37, DESIGN CHOICE). -/
def Obligations.OperandFrame : Prop :=
  ∀ (role : Role) (len : Nat) (sp0 w : Word) (r : Ref) (l : Loc) (s t : State),
    evalRef role len sp0 w r s = .ok l t →
      t.pc = s.pc ∧ t.pastEnd = s.pastEnd ∧ t.ps = s.ps ∧ t.fr = s.fr ∧ t.cr = s.cr ∧ t.pi = s.pi ∧ t.oe = s.oe ∧
        t.ie = s.ie ∧ (r ≠ .stk ∨ role ≠ .src → t.sp = s.sp) ∧ (∀ n, Ref.moves n r = false → t.reg n = s.reg n) ∧
        (s.bus = [] → SameBeside s t ∧ t.mem = s.mem ∧ t.fetch = s.fetch)

/-- Stack mode (R176): a source is popped, a destination is pushed, the lowest byte of the top at SP; a modified or
compared stack top leaves SP alone. What is popped is read once, at the pop: whatever happens to memory afterwards,
the operand is what the stack's top was. Pops and pushes are said where no agent moves meanwhile, of bytes that are
there (`OperandStorage` says when an access is present). That a push moves SP with its store and not when the
reference is evaluated is the model's choice (log 37, DESIGN CHOICE); that a compared stack top is read without a pop
is R176's own choice (D46). -/
def Obligations.StackModes : Prop :=
  (∀ (t : OpType) (sp0 w : Word) (s : State), s.bus = [] → checkAccess s.cfg.memSize s.sp.toNat t.len = .present →
    ∃ l, evalRef .src t.len sp0 w .stk s = .ok l { s with sp := s.sp + BitVec.ofNat 32 t.len } ∧
      ∀ u : State, readLoc t l u = .ok (BitVec.ofNat t.bits (s.mem.readN s.sp.toNat t.len)) u) ∧
    (∀ (t : OpType) (sp0 w : Word) (s : State),
      evalRef .modify t.len sp0 w .stk s = .ok (.mem s.sp) s ∧ evalRef .look t.len sp0 w .stk s = .ok (.mem s.sp) s) ∧
    (∀ (t : OpType) (sp0 w : Word) (v : BitVec t.bits) (s : State), s.bus = [] → s.mem.wf = true →
      checkAccess s.cfg.memSize (s.sp - BitVec.ofNat 32 t.len).toNat t.len = .present →
        evalRef .write t.len sp0 w .stk s = .ok .push s ∧
          ∃ u, writeLoc t .push v s = .ok () u ∧ u.sp = s.sp - BitVec.ofNat 32 t.len ∧
            u.mem.readN u.sp.toNat t.len = v.toNat ∧
            (∀ x, x < u.sp.toNat ∨ u.sp.toNat + t.len ≤ x → u.mem.read x = s.mem.read x))

/-- Operand Error and Address Error (R181, R191, R123, R372): a literal or immediate to be stored through, an
immediate as an address and a reserved specifier raise 16 with the address after the specifier; an address sum outside
the address space raises 11 with `pc0`, whatever memory there is; and so does, where memory fills the address space, a
pointer, an operand, a push or a pop with a byte past 2^32 - 1, before anything is read or stored, a push having moved SP
(log 32, DEDUCED): with less memory such an access stops with the fault unpopulated, as `Refused` says, and that this comes
before Address Error, while the sum is one even so, is the model's reading (log 12, DEDUCED). An instruction ends at a specifier that
is an Operand Error, no byte after it being read: FD as an address or a destination, and any mode but Register Direct
as a repeat's count register (R499, R400). Of a reference that the end of memory cuts off the decoder counts the bytes
that are there, which are fetched before any that is not (R100, R24), and where memory fills the address space
evaluating it is an Address Error (R24). What evaluation, or reading or storing an operand, raises ends the
instruction with that interrupt and nothing stored, as MOVW, ADDW, CMPW, CALL and RET show. After an instruction at
the last address of a full address space the next fetch is an Address Error (R24), as NOP shows; that it pushes 0 is
the model's choice (log 13, DESIGN CHOICE). -/
def Obligations.OperandErrors : Prop :=
  (∀ (len : Nat) (sp0 w : Word) (s : State),
     (∀ role ∈ [Role.modify, .write], (∀ k, evalRef role len sp0 w (.lit k) s = .trap 16 w s) ∧
       (∀ v, evalRef role len sp0 w (.imm v) s = .trap 16 w s)) ∧
       (∀ v, evalRef .address len sp0 w (.imm v) s = .trap 16 w s) ∧
       (∀ role b, evalRef role len sp0 w (.illegal b) s = .trap 16 w s) ∧
       ∀ (role : Role) (n : Fin 16) (base : Word),
         (∀ (r : BitVec 32 → Ref),
           (base, r) ∈ [(s.reg n, Ref.offW n), (s.pc, Ref.pcW), (sp0, Ref.spW), (s.reg n, Ref.offInd n), (s.pc, Ref.pcInd),
             (sp0, Ref.spInd)] → ∀ off : BitVec 32,
               (base.toNat : Int) + off.toInt < 0 ∨ 2 ^ 32 ≤ (base.toNat : Int) + off.toInt →
                 evalRef role len sp0 w (r off) s = .trap 11 s.pc s) ∧
         (∀ (r : BitVec 16 → Ref),
           (base, r) ∈ [(s.reg n, Ref.offH n), (s.pc, Ref.pcH), (sp0, Ref.spH)] → ∀ off : BitVec 16,
             (base.toNat : Int) + off.toInt < 0 ∨ 2 ^ 32 ≤ (base.toNat : Int) + off.toInt →
               evalRef role len sp0 w (r off) s = .trap 11 s.pc s) ∧
         (∀ (r : BitVec 8 → Ref),
           (base, r) ∈ [(s.reg n, Ref.offB n), (s.pc, Ref.pcB), (sp0, Ref.spB)] → ∀ off : BitVec 8,
             (base.toNat : Int) + off.toInt < 0 ∨ 2 ^ 32 ≤ (base.toNat : Int) + off.toInt →
               evalRef role len sp0 w (r off) s = .trap 11 s.pc s) ∧
         (checkAccess s.cfg.memSize (s.reg n).toNat 4 = .addressError →
           evalRef role len sp0 w (.autoIncInd n) s = .trap 11 s.pc s) ∧
         (checkAccess s.cfg.memSize base.toNat 4 = .addressError →
           evalRef role len sp0 w (.dirInd base) s = .trap 11 s.pc s) ∧
         (∀ (r : BitVec 32 → Ref),
           (base, r) ∈ [(s.reg n, Ref.offInd n), (s.pc, Ref.pcInd), (sp0, Ref.spInd)] → ∀ off : BitVec 32,
             checkAccess s.cfg.memSize (base + off).toNat 4 = .addressError →
               evalRef role len sp0 w (r off) s = .trap 11 s.pc s)) ∧
    (∀ memSize a n : Nat, checkAccess memSize a n = .addressError ↔ 2 ^ 32 ≤ memSize ∧ 2 ^ 32 < a + n) ∧
    (∀ (t : OpType) (s : State),
      (∀ a : Word, checkAccess s.cfg.memSize a.toNat t.len = .addressError →
        readLoc t (.mem a) s = .trap 11 s.pc s ∧ ∀ v, writeLoc t (.mem a) v s = .trap 11 s.pc s) ∧
        (checkAccess s.cfg.memSize s.sp.toNat t.len = .addressError →
          ∀ sp0 w, evalRef .src t.len sp0 w .stk s = .trap 11 s.pc s) ∧
        (checkAccess s.cfg.memSize (s.sp - BitVec.ofNat 32 t.len).toNat t.len = .addressError →
          ∀ v, writeLoc t .push v s = .trap 11 s.pc { s with sp := s.sp - BitVec.ofNat 32 t.len })) ∧
    (∀ s : State,
      (checkAccess s.cfg.memSize s.sp.toNat 4 = .addressError → pop4 s = .trap 11 s.pc s) ∧
        (checkAccess s.cfg.memSize (s.sp - 4).toNat 4 = .addressError →
          ∀ v, push4 v s = .trap 11 s.pc { s with sp := s.sp - 4 })) ∧
    (∀ (cfg : Params) (b : Byte) (rest : List Byte),
      (∀ t : OpType, tableSpec cfg b = 0xFD →
        decodeRef cfg (.dest t) (b :: rest) = (.illegal b, rest) ∧ decodeRef cfg .addr (b :: rest) = (.illegal b, rest)) ∧
        ((tableSpec cfg b).toNat / 16 ≠ 12 → decodeRef cfg .count (b :: rest) = (.illegal b, rest)) ∧
        ∀ (t : OpType) (k : Nat),
          (k = 1 ∧ ((tableSpec cfg b).toNat / 16 = 8 ∨ tableSpec cfg b ∈ [0xF0, 0xF4, 0xF8])) ∨
              (k = 2 ∧ ((tableSpec cfg b).toNat / 16 = 9 ∨ tableSpec cfg b ∈ [0xF1, 0xF5, 0xF9])) ∨
              (k = 4 ∧ ((tableSpec cfg b).toNat / 16 ∈ [10, 11] ∨
                tableSpec cfg b ∈ [0xF2, 0xF3, 0xF6, 0xF7, 0xFA, 0xFB])) ∨
              (k = t.len ∧ tableSpec cfg b = 0xFD) →
            rest.length < k → ∃ n, decodeRef cfg (.value t) (b :: rest) = (.missing n, []) ∧
              (Ref.missing n).length (.value t) = 1 + rest.length) ∧
    (∀ (role : Role) (len : Nat) (sp0 w : Word) (n : Fin 9) (s : State), 2 ^ 32 ≤ s.cfg.memSize →
      evalRef role len sp0 w (.missing n) s = .trap 11 s.pc s) ∧
    (∀ s : State, s.pc = 0xFFFFFFFF → s.ps.rep = 0 → s.Settled →
      ∃ t, exec .nop s = .next t ∧ t.pc = 0 ∧ t.pastEnd = true) ∧
    (∀ s : State, s.pastEnd = true → s.pc = 0 → 2 ^ 32 ≤ s.cfg.memSize → s.idle = false → s.events = [] →
      step s = takes 11 0 s) ∧
    (∀ (src des : Ref) (s s₁ : State) (n : Nat) (a : Word), s.ps.rep = 0 →
      (evalBoth .w .w .write src des s = .trap n a s₁ → exec (.movw src des) s = takes n a (s₁.noteExecuted s.pc)) ∧
        (evalBoth .w .w .modify src des s = .trap n a s₁ → exec (.addw src des) s = takes n a (s₁.noteExecuted s.pc)) ∧
        (evalBoth .w .w .look src des s = .trap n a s₁ → exec (.cmpw src des) s = takes n a (s₁.noteExecuted s.pc)) ∧
        (∀ s₀ t, evalTarget s.sp (s.pc + 2) src s = .ok t s₀ → push4 (pcNext (.call src) s) s₀ = .trap n a s₁ →
          exec (.call src) s = takes n a (s₁.noteExecuted s.pc)) ∧
        (pop4 s = .trap n a s₁ → exec .ret s = takes n a (s₁.noteExecuted s.pc))) ∧
    ∀ (src des : Ref) (s s₁ s₂ : State) (l₁ l₂ : Loc) (n : Nat) (a : Word), s.ps.rep = 0 →
      (evalBoth .w .w .write src des s = .ok (l₁, l₂) s₁ →
        (readLoc .w l₁ s₁ = .trap n a s₂ → exec (.movw src des) s = takes n a (s₂.noteExecuted s.pc)) ∧
          ∀ v s₀, readLoc .w l₁ s₁ = .ok v s₀ → writeLoc .w l₂ v s₀ = .trap n a s₂ →
            exec (.movw src des) s = takes n a (s₂.noteExecuted s.pc)) ∧
        (evalBoth .w .w .modify src des s = .ok (l₁, l₂) s₁ →
          (readLoc .w l₁ s₁ = .trap n a s₂ → exec (.addw src des) s = takes n a (s₂.noteExecuted s.pc)) ∧
            ∀ v s₀, readLoc .w l₁ s₁ = .ok v s₀ → readLoc .w l₂ s₀ = .trap n a s₂ →
              exec (.addw src des) s = takes n a (s₂.noteExecuted s.pc)) ∧
        (evalBoth .w .w .look src des s = .ok (l₁, l₂) s₁ →
          ∀ v s₀, readLoc .w l₁ s₁ = .ok v s₀ → readLoc .w l₂ s₀ = .trap n a s₂ →
            exec (.cmpw src des) s = takes n a (s₂.noteExecuted s.pc))

/-- An access of `n` bytes can be made exactly where every byte of it lies in the memory there is and below 2^32, at
any alignment; with less memory than the address space it is absent where one does not, and with a full one an Address
Error, which `OperandErrors` says (R80, R83, R191; log 12, DEDUCED). `Refused` says what an absent access does.
Reading and writing a location (R81, R153, R160 to R162): memory is little-endian, so that a write of `n` bytes is
read back, byte `i` of it holds bits 8i+7:8i, and no other byte changes; an operand in a register is what Register
Direct reads and writes, a literal is its value, an immediate its low bits; and an operand in memory, where no agent
moves meanwhile, is the number its bytes hold, and storing it writes its bytes and changes nothing else but what the
instruction buffer has noted. -/
def Obligations.OperandStorage : Prop :=
  (∀ memSize a n : Nat,
    (checkAccess memSize a n = .present ↔ a + n ≤ memSize ∧ a + n ≤ 2 ^ 32) ∧
      (checkAccess memSize a n = .absent ↔ memSize < 2 ^ 32 ∧ memSize < a + n)) ∧
  (∀ (m : Memory) (a n v : Nat), m.wf = true →
    (m.writeN a n v).wf = true ∧ (m.writeN a n v).readN a n = v % 256 ^ n ∧
      (∀ i, i < n → (m.writeN a n v).read (a + i) = BitVec.ofNat 8 (v / 256 ^ i)) ∧
      (∀ x, x < a ∨ a + n ≤ x → (m.writeN a n v).read x = m.read x)) ∧
    ∀ (t : OpType) (s : State),
      (∀ n, readLoc t (.reg n) s = .ok (readReg t n s) s) ∧ (∀ k, readLoc t (.lit k) s = .ok (literalValue t k) s) ∧
        (∀ v : BitVec 64, readLoc t (.imm v) s = .ok (v.setWidth t.bits) s) ∧
        (∀ n v, writeLoc t (.reg n) v s = .ok () (writeReg t n v s)) ∧
        ∀ a : Word, s.bus = [] → checkAccess s.cfg.memSize a.toNat t.len = .present →
          readLoc t (.mem a) s = .ok (BitVec.ofNat t.bits (s.mem.readN a.toNat t.len)) s ∧
            ∀ v : BitVec t.bits, s.mem.wf = true →
              ∃ u, writeLoc t (.mem a) v s = .ok () u ∧ u = { s with mem := u.mem, fetch := u.fetch } ∧
                u.mem.readN a.toNat t.len = v.toNat ∧
                ∀ x, x < a.toNat ∨ a.toNat + t.len ≤ x → u.mem.read x = s.mem.read x

/-! ## Moves and integer arithmetic -/

/-- MOVB, MOVH, MOVW, MOVR, MOVL: src is stored, no flag changes. -/
def Obligations.Moves : Prop :=
  ∀ p ∈ [(OpType.b, Instr.movb), (.h, .movh), (.w, .movw), (.r, .movr), (.l, .movl)],
    Writes p.1 p.1 p.2 (fun _ _ => True) (fun _ a => a) (fun s _ => s.ps)

/-- ADD and ADC: the sum modulo `2 ^ w`; C the carry out, V the exact signed sum out of range, N its sign, Z the result
zero, U cleared. Where V is delivered as interrupt 3, `IntegerOverflow` says what happens. -/
def Obligations.Additions : Prop :=
  (∀ p ∈ [(OpType.b, Instr.addb), (.h, .addh), (.w, .addw)],
    Modifies p.1 p.1 p.2 (fun s a b => (outOfRange p.1.bits (a.toInt + b.toInt) && s.ivEnabled) = false)
      (fun _ a b => a + b)
      (fun s a b =>
        { s.ps with
            fC := decide (2 ^ p.1.bits ≤ a.toNat + b.toNat)
            fV := outOfRange p.1.bits (a.toInt + b.toInt)
            fN := decide (a.toInt + b.toInt < 0)
            fZ := a + b == 0
            fU := false })) ∧
    ∀ p ∈ [(OpType.b, Instr.adcb), (.h, .adch), (.w, .adcw)],
      Modifies p.1 p.1 p.2
        (fun s a b => (outOfRange p.1.bits (a.toInt + b.toInt + s.ps.fC.toNat) && s.ivEnabled) = false)
        (fun s a b => a + b + BitVec.ofNat _ s.ps.fC.toNat)
        (fun s a b =>
          { s.ps with
              fC := decide (2 ^ p.1.bits ≤ a.toNat + b.toNat + s.ps.fC.toNat)
              fV := outOfRange p.1.bits (a.toInt + b.toInt + s.ps.fC.toNat)
              fN := decide (a.toInt + b.toInt + s.ps.fC.toNat < 0)
              fZ := a + b + BitVec.ofNat _ s.ps.fC.toNat == 0
              fU := false })

/-- SUB (dsrc - src), SBB (dsrc - src - C), SBR (src - dsrc) and NEG (0 - src): the difference modulo `2 ^ w`; C the
borrow, V the exact signed difference out of range, N its sign, Z the result zero, U cleared. -/
def Obligations.Subtractions : Prop :=
  (∀ p ∈ [(OpType.b, Instr.subb), (.h, .subh), (.w, .subw)],
    Modifies p.1 p.1 p.2 (fun s a b => (outOfRange p.1.bits (b.toInt - a.toInt) && s.ivEnabled) = false)
      (fun _ a b => b - a)
      (fun s a b =>
        { s.ps with
            fC := decide (b.toNat < a.toNat)
            fV := outOfRange p.1.bits (b.toInt - a.toInt)
            fN := decide (b.toInt < a.toInt)
            fZ := b == a
            fU := false })) ∧
    (∀ p ∈ [(OpType.b, Instr.sbbb), (.h, .sbbh), (.w, .sbbw)],
      Modifies p.1 p.1 p.2
        (fun s a b => (outOfRange p.1.bits (b.toInt - a.toInt - s.ps.fC.toNat) && s.ivEnabled) = false)
        (fun s a b => b - a - BitVec.ofNat _ s.ps.fC.toNat)
        (fun s a b =>
          { s.ps with
              fC := decide (b.toNat < a.toNat + s.ps.fC.toNat)
              fV := outOfRange p.1.bits (b.toInt - a.toInt - s.ps.fC.toNat)
              fN := decide (b.toInt - a.toInt - s.ps.fC.toNat < 0)
              fZ := b - a - BitVec.ofNat _ s.ps.fC.toNat == 0
              fU := false })) ∧
    (∀ p ∈ [(OpType.b, Instr.sbrb), (.h, .sbrh), (.w, .sbrw)],
      Modifies p.1 p.1 p.2 (fun s a b => (outOfRange p.1.bits (a.toInt - b.toInt) && s.ivEnabled) = false)
        (fun _ a b => a - b)
        (fun s a b =>
          { s.ps with
              fC := decide (a.toNat < b.toNat)
              fV := outOfRange p.1.bits (a.toInt - b.toInt)
              fN := decide (a.toInt < b.toInt)
              fZ := a == b
              fU := false })) ∧
    ∀ p ∈ [(OpType.b, Instr.negb), (.h, .negh), (.w, .negw)],
      Writes p.1 p.1 p.2 (fun s a => (outOfRange p.1.bits (-a.toInt) && s.ivEnabled) = false) (fun _ a => -a)
        (fun s a =>
          { s.ps with
              fC := a != 0
              fV := outOfRange p.1.bits (-a.toInt)
              fN := decide (0 < a.toInt)
              fZ := a == 0
              fU := false })

/-- MUL: the low half of the product; C unchanged, V the exact product out of range, N its sign, Z the result zero. DIV
(dsrc / src), DVR (src / dsrc) and REM (dsrc rem src) by a divisor that is not zero: the quotient truncates toward
zero and the remainder has the dividend's sign, which is R203's own choice where the source is silent (D12); C unchanged, V
the quotient out of range for DIV and DVR and 0 for REM, the most negative number by -1 included. -/
def Obligations.ProductsQuotients : Prop :=
  (∀ p ∈ [(OpType.b, Instr.mulb), (.h, .mulh), (.w, .mulw)],
     Modifies p.1 p.1 p.2 (fun s a b => (outOfRange p.1.bits (a.toInt * b.toInt) && s.ivEnabled) = false)
       (fun _ a b => a * b)
       (fun s a b =>
         { s.ps with
             fV := outOfRange p.1.bits (a.toInt * b.toInt)
             fN := decide (a.toInt * b.toInt < 0)
             fZ := a * b == 0
             fU := false })) ∧
    (∀ p ∈ [(OpType.b, Instr.divb), (.h, .divh), (.w, .divw)],
      Modifies p.1 p.1 p.2
        (fun s a b => a ≠ 0 ∧ (outOfRange p.1.bits (b.toInt.tdiv a.toInt) && s.ivEnabled) = false)
        (fun _ a b => b.sdiv a)
        (fun s a b =>
          { s.ps with
              fV := outOfRange p.1.bits (b.toInt.tdiv a.toInt)
              fN := decide (b.toInt.tdiv a.toInt < 0)
              fZ := b.sdiv a == 0
              fU := false })) ∧
      (∀ p ∈ [(OpType.b, Instr.dvrb), (.h, .dvrh), (.w, .dvrw)],
        Modifies p.1 p.1 p.2
          (fun s a b => b ≠ 0 ∧ (outOfRange p.1.bits (a.toInt.tdiv b.toInt) && s.ivEnabled) = false)
          (fun _ a b => a.sdiv b)
          (fun s a b =>
            { s.ps with
                fV := outOfRange p.1.bits (a.toInt.tdiv b.toInt)
                fN := decide (a.toInt.tdiv b.toInt < 0)
                fZ := a.sdiv b == 0
                fU := false })) ∧
      ∀ p ∈ [(OpType.b, Instr.remb), (.h, .remh), (.w, .remw)],
        Modifies p.1 p.1 p.2 (fun _ a _ => a ≠ 0) (fun _ a b => b.srem a)
          (fun s a b =>
            { s.ps with
                fV := false
                fN := decide ((b.srem a).toInt < 0)
                fZ := b.srem a == 0
                fU := false })

/-- A zero divisor takes interrupt 4 with nothing stored and no flag changed (R203, R485). -/
def Obligations.IntegerZeroDivide : Prop :=
  (∀ p ∈ [(OpType.b, Instr.divb), (.h, .divh), (.w, .divw), (.b, .remb), (.h, .remh), (.w, .remw)],
    ModifyRaises p.1 p.1 p.2 4 (fun _ a _ => a = 0) (fun s _ _ => s.ps) (fun _ _ => none)) ∧
    ∀ p ∈ [(OpType.b, Instr.dvrb), (.h, .dvrh), (.w, .dvrw)],
      ModifyRaises p.1 p.1 p.2 4 (fun _ _ b => b = 0) (fun s _ _ => s.ps) (fun _ _ => none)

/-- Where IV and IE are set, an integer overflow stores the wrapped result and its flags and then takes interrupt 3 with
`pc0` pushed (R186, R484): ADD, ADC, SUB, SBB, SBR, NEG, MUL, DIV, DVR, SFA, CVWB, CVWH, CVRW and CVLW; of the last two
an infinite operand too, whose stored Word is a free value that the model draws (U11; log 7, DESIGN CHOICE). -/
def Obligations.IntegerOverflow : Prop :=
  (∀ p ∈ [(OpType.b, Instr.addb), (.h, .addh), (.w, .addw)],
    ModifySignals p.1 p.1 p.2 3 (fun s a b => outOfRange p.1.bits (a.toInt + b.toInt) = true ∧ s.ivEnabled = true)
      (fun _ a b => a + b)
      (fun s a b => s.ps.withArith (decide (2 ^ p.1.bits ≤ a.toNat + b.toNat)) true (decide (a.toInt + b.toInt < 0))
        (a + b == 0))
      (fun _ _ => none)) ∧
    (∀ p ∈ [(OpType.b, Instr.adcb), (.h, .adch), (.w, .adcw)],
      ModifySignals p.1 p.1 p.2 3
        (fun s a b => outOfRange p.1.bits (a.toInt + b.toInt + s.ps.fC.toNat) = true ∧ s.ivEnabled = true)
        (fun s a b => a + b + BitVec.ofNat _ s.ps.fC.toNat)
        (fun s a b =>
          s.ps.withArith (decide (2 ^ p.1.bits ≤ a.toNat + b.toNat + s.ps.fC.toNat)) true
            (decide (a.toInt + b.toInt + s.ps.fC.toNat < 0)) (a + b + BitVec.ofNat _ s.ps.fC.toNat == 0))
        (fun _ _ => none)) ∧
    (∀ p ∈ [(OpType.b, Instr.subb), (.h, .subh), (.w, .subw)],
      ModifySignals p.1 p.1 p.2 3 (fun s a b => outOfRange p.1.bits (b.toInt - a.toInt) = true ∧ s.ivEnabled = true)
        (fun _ a b => b - a)
        (fun s a b => s.ps.withArith (decide (b.toNat < a.toNat)) true (decide (b.toInt < a.toInt)) (b == a))
        (fun _ _ => none)) ∧
    (∀ p ∈ [(OpType.b, Instr.sbbb), (.h, .sbbh), (.w, .sbbw)],
      ModifySignals p.1 p.1 p.2 3
        (fun s a b => outOfRange p.1.bits (b.toInt - a.toInt - s.ps.fC.toNat) = true ∧ s.ivEnabled = true)
        (fun s a b => b - a - BitVec.ofNat _ s.ps.fC.toNat)
        (fun s a b =>
          s.ps.withArith (decide (b.toNat < a.toNat + s.ps.fC.toNat)) true
            (decide (b.toInt - a.toInt - s.ps.fC.toNat < 0)) (b - a - BitVec.ofNat _ s.ps.fC.toNat == 0))
        (fun _ _ => none)) ∧
    (∀ p ∈ [(OpType.b, Instr.sbrb), (.h, .sbrh), (.w, .sbrw)],
      ModifySignals p.1 p.1 p.2 3 (fun s a b => outOfRange p.1.bits (a.toInt - b.toInt) = true ∧ s.ivEnabled = true)
        (fun _ a b => a - b)
        (fun s a b => s.ps.withArith (decide (a.toNat < b.toNat)) true (decide (a.toInt < b.toInt)) (a == b))
        (fun _ _ => none)) ∧
    (∀ p ∈ [(OpType.b, Instr.negb), (.h, .negh), (.w, .negw)],
      WriteSignals p.1 p.1 p.2 3 (fun s a => outOfRange p.1.bits (-a.toInt) = true ∧ s.ivEnabled = true)
        (fun _ a => -a) (fun s a => s.ps.withArith (a != 0) true (decide (0 < a.toInt)) (a == 0)) (fun _ => none)) ∧
    (∀ p ∈ [(OpType.b, Instr.mulb), (.h, .mulh), (.w, .mulw)],
      ModifySignals p.1 p.1 p.2 3 (fun s a b => outOfRange p.1.bits (a.toInt * b.toInt) = true ∧ s.ivEnabled = true)
        (fun _ a b => a * b)
        (fun s a b => s.ps.withArith s.ps.fC true (decide (a.toInt * b.toInt < 0)) (a * b == 0))
        (fun _ _ => none)) ∧
    (∀ p ∈ [(OpType.b, Instr.divb), (.h, .divh), (.w, .divw)],
      ModifySignals p.1 p.1 p.2 3
        (fun s a b => a ≠ 0 ∧ outOfRange p.1.bits (b.toInt.tdiv a.toInt) = true ∧ s.ivEnabled = true)
        (fun _ a b => b.sdiv a)
        (fun s a b => s.ps.withArith s.ps.fC true (decide (b.toInt.tdiv a.toInt < 0)) (b.sdiv a == 0))
        (fun _ _ => none)) ∧
    (∀ p ∈ [(OpType.b, Instr.dvrb), (.h, .dvrh), (.w, .dvrw)],
      ModifySignals p.1 p.1 p.2 3
        (fun s a b => b ≠ 0 ∧ outOfRange p.1.bits (a.toInt.tdiv b.toInt) = true ∧ s.ivEnabled = true)
        (fun _ a b => a.sdiv b)
        (fun s a b => s.ps.withArith s.ps.fC true (decide (a.toInt.tdiv b.toInt < 0)) (a.sdiv b == 0))
        (fun _ _ => none)) ∧
    (∀ p ∈ [(OpType.b, Instr.sfab), (.h, .sfah), (.w, .sfaw)],
      ModifySignals .b p.1 p.2 3
        (fun s a b => 0 < a.toInt ∧ outOfRange p.1.bits (b.toInt * 2 ^ a.toInt.toNat) = true ∧ s.ivEnabled = true)
        (fun _ a b => b <<< a.toInt.toNat)
        (fun s a b =>
          s.ps.withArith ((b.toNat * 2 ^ a.toInt.toNat).testBit p.1.bits) true (decide (b.toInt < 0))
            (b <<< a.toInt.toNat == 0))
        (fun _ _ => none)) ∧
    (∀ p ∈ [(OpType.b, Instr.cvwb), (.h, .cvwh)],
      WriteSignals .w p.1 p.2 3 (fun s a => outOfRange p.1.bits a.toInt = true ∧ s.ivEnabled = true)
        (fun _ a => a.setWidth _)
        (fun s a => (s.ps.withArith s.ps.fC true (decide (a.toInt < 0)) (a.setWidth p.1.bits == 0)).clearFp)
        (fun _ => none)) ∧
    (∀ p ∈ [(OpType.r, Instr.cvrw), (.l, .cvlw)], ∀ (sg : Bool) (m : Nat) (e : Int) (rc : BitVec 2),
      WriteSignals p.1 .w p.2 3
        (fun s a => (fmtOf p.1).value a.toNat = .fin sg m e ∧ s.ps.rc = rc ∧
          outOfRange 32 (roundToInt rc sg m e).value = true ∧ s.ivEnabled = true)
        (fun _ _ => BitVec.ofInt 32 (roundToInt rc sg m e).value)
        (fun s _ =>
          (s.ps.withArith s.ps.fC true (decide ((roundToInt rc sg m e).value < 0))
            (BitVec.ofInt 32 (roundToInt rc sg m e).value == 0)).withFp
              ((roundToInt rc sg m e).guard || (roundToInt rc sg m e).rest) false false false false)
        (fun _ => none)) ∧
    ∀ p ∈ [(OpType.r, Instr.cvrw), (.l, .cvlw)],
      ∀ (src des : Ref) (s s₁ s₂ s₄ : State) (l₁ l₂ : Loc) (a : BitVec p.1.bits) (sg : Bool),
        Runs (p.2 src des) s → evalBoth p.1 .w .write src des s = .ok (l₁, l₂) s₁ → readLoc p.1 l₁ s₁ = .ok a s₂ →
          (fmtOf p.1).value a.toNat = .inf sg → s.ivEnabled = true →
            writeLoc .w l₂ (s.freeNext 32) (s₂.drew 1) = .ok () s₄ → s₄.bus = [] →
              (src = .stk ∨ des = .stk → 2048 ≤ s₄.sp.toNat) →
                exec (p.2 src des) s =
                  takes 3 s.pc ((s₄.withPs (s.ps.withArith s.ps.fC true sg (s.freeNext 32 == 0)).clearFp).goesOn
                    (p.2 src des) s)

/-- CMP (R227 to R229): C where src is below dsrc as unsigned numbers, N as signed ones, Z where they are equal; V and U
cleared; nothing is stored. The third component is the opcode. -/
def Obligations.IntegerCompares : Prop :=
  ∀ p ∈ [(OpType.b, Instr.cmpb, 0x30#8), (.h, .cmph, 0x32), (.w, .cmpw, 0x34)],
    (∀ cfg src des, (encode cfg (p.2.1 src des)).head? = some p.2.2) ∧
      Compares p.1 p.2.1 (fun s a b =>
        { s.ps with
            fC := decide (a.toNat < b.toNat)
            fV := false
            fN := decide (a.toInt < b.toInt)
            fZ := a == b
            fU := false })

/-- ADCD and SBBD: on packed decimal digits, the decimal sum and difference with carry and borrow (R242, R243); on any
bytes, digits or not, what the digit formula gives: the low nibbles are added or subtracted with C, corrected by ten past
a digit's range, then the high ones with the carry or borrow, which is C at the end; V, N and U cleared and Z where
the stored byte is zero. -/
def Obligations.Decimals : Prop :=
  Modifies .b .b .adcd (fun _ a b => isDecimal a ∧ isDecimal b)
    (fun s a b => ofDecimal ((decimal a + decimal b + s.ps.fC.toNat) % 100))
    (fun s a b =>
      { s.ps with
          fC := decide (100 ≤ decimal a + decimal b + s.ps.fC.toNat)
          fV := false
          fN := false
          fZ := (decimal a + decimal b + s.ps.fC.toNat) % 100 == 0
          fU := false }) ∧
    Modifies .b .b .sbbd (fun _ a b => isDecimal a ∧ isDecimal b)
      (fun s a b => ofDecimal (((decimal b : Int) - decimal a - s.ps.fC.toNat) % 100).toNat)
      (fun s a b =>
        { s.ps with
            fC := decide (decimal b < decimal a + s.ps.fC.toNat)
            fV := false
            fN := false
            fZ := ((decimal b : Int) - decimal a - s.ps.fC.toNat) % 100 == 0
            fU := false }) ∧
    (∀ (lo hi : Nat) (c₁ c₂ : Bool) (v : Byte),
      Modifies .b .b .adcd
        (fun s a b =>
          c₁ = decide (9 < a.toNat % 16 + b.toNat % 16 + s.ps.fC.toNat) ∧
            lo = a.toNat % 16 + b.toNat % 16 + s.ps.fC.toNat - (if c₁ then 10 else 0) ∧
            c₂ = decide (9 < a.toNat / 16 + b.toNat / 16 + c₁.toNat) ∧
            hi = a.toNat / 16 + b.toNat / 16 + c₁.toNat - (if c₂ then 10 else 0) ∧
            v = BitVec.ofNat 8 (hi % 16 * 16 + lo % 16))
        (fun _ _ _ => v) (fun s _ _ => { s.ps with fC := c₂, fV := false, fN := false, fZ := v == 0, fU := false })) ∧
    ∀ (lo hi : Int) (b₁ b₂ : Bool) (v : Byte),
      Modifies .b .b .sbbd
        (fun s a b =>
          b₁ = decide ((b.toNat % 16 : Nat) - (a.toNat % 16 : Nat) - (s.ps.fC.toNat : Int) < 0) ∧
            lo = (b.toNat % 16 : Nat) - (a.toNat % 16 : Nat) - (s.ps.fC.toNat : Int) + (if b₁ then 10 else 0) ∧
            b₂ = decide ((b.toNat / 16 : Nat) - (a.toNat / 16 : Nat) - (b₁.toNat : Int) < 0) ∧
            hi = (b.toNat / 16 : Nat) - (a.toNat / 16 : Nat) - (b₁.toNat : Int) + (if b₂ then 10 else 0) ∧
            v = BitVec.ofInt 8 (hi % 16 * 16 + lo % 16))
        (fun _ _ _ => v) (fun s _ _ => { s.ps with fC := b₂, fV := false, fN := false, fZ := v == 0, fU := false })

/-- CVBW, CVHW: the sign-extended value; CVWB, CVWH: the low bits, with V where the value does not fit. N is the sign of
the value, Z the result zero, C unchanged, U and the five floating-point flags cleared. -/
def Obligations.IntegerConversions : Prop :=
  (∀ p ∈ [(OpType.b, Instr.cvbw), (.h, .cvhw)],
    Writes p.1 .w p.2 (fun _ _ => True) (fun _ a => a.signExtend 32)
      (fun s a => ({ s.ps with fV := false, fN := decide (a.toInt < 0), fZ := a == 0, fU := false }).clearFp)) ∧
    ∀ p ∈ [(OpType.b, Instr.cvwb), (.h, .cvwh)],
      Writes .w p.1 p.2 (fun s a => (outOfRange p.1.bits a.toInt && s.ivEnabled) = false) (fun _ a => a.setWidth _)
        (fun s a =>
          ({ s.ps with
              fV := outOfRange p.1.bits a.toInt
              fN := decide (a.toInt < 0)
              fZ := a.setWidth p.1.bits == 0
              fU := false }).clearFp)

/-! ## Logic and shifts -/

/-- AND, OR, XOR, NOT and BIT (R260): the bits, which BIT does not store; C unchanged, N the high bit of the result, Z the
result zero, V and U cleared; no exception of their own. -/
def Obligations.Logicals : Prop :=
  (∀ p ∈ [(OpType.b, Instr.bitb), (.h, .bith), (.w, .bitw)],
     Compares p.1 p.2 (fun s a b =>
       { s.ps with fN := (a &&& b).msb, fZ := (a &&& b) == 0, fV := false, fU := false })) ∧
    (∀ p ∈ [(OpType.b, Instr.andb), (.h, .andh), (.w, .andw)],
      Modifies p.1 p.1 p.2 (fun _ _ _ => True) (fun _ a b => a &&& b)
        (fun s a b => { s.ps with fN := (a &&& b).msb, fZ := (a &&& b) == 0, fV := false, fU := false })) ∧
      (∀ p ∈ [(OpType.b, Instr.orb), (.h, .orh), (.w, .orw)],
        Modifies p.1 p.1 p.2 (fun _ _ _ => True) (fun _ a b => a ||| b)
          (fun s a b => { s.ps with fN := (a ||| b).msb, fZ := (a ||| b) == 0, fV := false, fU := false })) ∧
      (∀ p ∈ [(OpType.b, Instr.xorb), (.h, .xorh), (.w, .xorw)],
        Modifies p.1 p.1 p.2 (fun _ _ _ => True) (fun _ a b => a ^^^ b)
          (fun s a b => { s.ps with fN := (a ^^^ b).msb, fZ := (a ^^^ b) == 0, fV := false, fU := false })) ∧
      ∀ p ∈ [(OpType.b, Instr.notb), (.h, .noth), (.w, .notw)],
        Writes p.1 p.1 p.2 (fun _ _ => True) (fun _ a => ~~~a)
          (fun s a => { s.ps with fN := (~~~a).msb, fZ := ~~~a == 0, fV := false, fU := false })

/-- SFT and SFA (R277, R280): the Byte src is a signed count, left where positive. C is the last bit shifted out: bit
`w` of the exact product on the left, bit `|k| - 1` of the operand on the right, bit 0 where the count is 0. SFA right
divides by `2 ^ |k|` rounding down, and left sets V where the exact product does not fit; its N is dsrc's sign. -/
def Obligations.Shifts : Prop :=
  (∀ p ∈ [(OpType.b, Instr.sftb), (.h, .sfth), (.w, .sftw)],
    Modifies .b p.1 p.2 (fun _ _ _ => True)
      (fun _ a b => if 0 ≤ a.toInt then b <<< a.toInt.toNat else b >>> (-a.toInt).toNat)
      (fun s a b =>
        let v := if 0 ≤ a.toInt then b <<< a.toInt.toNat else b >>> (-a.toInt).toNat
        { s.ps with
            fC := if a.toInt = 0 then b.getLsbD 0
              else if 0 < a.toInt then (b.toNat * 2 ^ a.toInt.toNat).testBit p.1.bits
              else b.toNat.testBit ((-a.toInt).toNat - 1)
            fN := v.msb
            fZ := v == 0
            fV := false
            fU := false })) ∧
    ∀ p ∈ [(OpType.b, Instr.sfab), (.h, .sfah), (.w, .sfaw)],
      Modifies .b p.1 p.2
        (fun s a b => (decide (0 < a.toInt) && outOfRange p.1.bits (b.toInt * 2 ^ a.toInt.toNat) && s.ivEnabled) = false)
        (fun _ a b => if 0 ≤ a.toInt then b <<< a.toInt.toNat else BitVec.ofInt _ (b.toInt / 2 ^ (-a.toInt).toNat))
        (fun s a b =>
          let v := if 0 ≤ a.toInt then b <<< a.toInt.toNat else BitVec.ofInt _ (b.toInt / 2 ^ (-a.toInt).toNat)
          { s.ps with
              fC := if a.toInt = 0 then b.getLsbD 0
                else if 0 < a.toInt then (b.toNat * 2 ^ a.toInt.toNat).testBit p.1.bits
                else decide (b.toInt / 2 ^ ((-a.toInt).toNat - 1) % 2 = 1)
              fN := decide (b.toInt < 0)
              fZ := v == 0
              fV := decide (0 < a.toInt) && outOfRange p.1.bits (b.toInt * 2 ^ a.toInt.toNat)
              fU := false })

/-- ROT (R283): bit `i` of the result is bit `i + k` of dsrc, numbered modulo the width, `k` being the count where
positive counts rotate right and its negative under the other parameter; C is the last bit that went round. -/
def Obligations.Rotates : Prop :=
  ∀ p ∈ [(OpType.b, Instr.rotb), (.h, .roth), (.w, .rotw)], ∀ (k : Int) (v : BitVec p.1.bits),
    Modifies .b p.1 p.2
      (fun s a b =>
        k = (if s.cfg.rot = .positiveRight then a.toInt else -a.toInt) ∧
          ∀ i : Nat, i < p.1.bits → v.getLsbD i = b.getLsbD (((i : Int) + k) % (p.1.bits : Int)).toNat)
      (fun _ _ _ => v)
      (fun s _ _ =>
        { s.ps with
            fC := if 0 < k then v.msb else v.getLsbD 0
            fN := v.msb
            fZ := v == 0
            fV := false
            fU := false })

/-- FFO (R286 to R288): the place of the lowest one bit of src, or its width with Z set. The third component is the
opcode. -/
def Obligations.FindFirstOne : Prop :=
  ∀ p ∈ [(OpType.b, Instr.ffob, 0x31#8), (.h, .ffoh, 0x33), (.w, .ffow, 0x35)],
    (∀ cfg src des, (encode cfg (p.2.1 src des)).head? = some p.2.2) ∧
    (∀ n, Writes p.1 .b p.2.1 (fun _ a => a.getLsbD n = true ∧ ∀ j, j < n → a.getLsbD j = false)
      (fun _ _ => BitVec.ofNat 8 n) (fun s _ => { s.ps with fN := false, fZ := false, fV := false, fU := false })) ∧
      Writes p.1 .b p.2.1 (fun _ a => a = 0) (fun _ _ => BitVec.ofNat 8 p.1.bits)
        (fun s _ => { s.ps with fN := false, fZ := true, fV := false, fU := false })

/-! ## Floating point -/

/-- NEG and SGN of operands that are no NaN: the sign bit reversed, and dsrc with the sign bit of src; C and N where the
result is negative, Z where it is zero, V, U and the exception flags cleared. -/
def Obligations.RealSigns : Prop :=
  (∀ p ∈ [(OpType.r, Instr.negr), (.l, .negl)],
    Writes p.1 p.1 p.2 (fun _ a => (fmtOf p.1).isNan a.toNat = false) (fun _ a => a ^^^ signBit _)
      (fun s a => (s.ps.withReal (fmtOf p.1) (a ^^^ signBit _).toNat).clearFp)) ∧
    ∀ p ∈ [(OpType.r, Instr.sgnr), (.l, .sgnl)],
      Modifies p.1 p.1 p.2 (fun _ a b => (fmtOf p.1).isNan a.toNat = false ∧ (fmtOf p.1).isNan b.toNat = false)
        (fun _ a b => (b &&& ~~~(signBit _)) ||| (a &&& signBit _))
        (fun s a b => (s.ps.withReal (fmtOf p.1) ((b &&& ~~~(signBit _)) ||| (a &&& signBit _)).toNat).clearFp)

/-- ADD, SUB, SBR, MUL, DIV and DVR of reals that neither overflow nor underflow: the delivered result is stored; C and
N where it is negative, Z where it is zero, V and U cleared, IX where it was rounded, the other exception flags
cleared. What is delivered of finite operands is the exact sum, product or quotient (`Rounding` says how it is
delivered); an exact zero is the zero whose sign R309 gives, and an infinity follows R309. A pattern that is no NaN is
negative where its value is below zero or minus infinity, and zero where its value is zero, so that both zeros are zero
and neither is negative (R312). -/
def Obligations.RealArithmetic : Prop :=
  (∀ e ∈ realOperations, ∀ (v : BitVec e.1.bits) (ix g r u : Bool),
    Modifies e.1 e.1 e.2.1
      (fun s a b => realOutcome e s a b = .store (some v.toNat) ix false false g r u ∧ (ix && s.iixEnabled) = false)
      (fun _ _ _ => v)
      (fun s _ _ => (s.ps.withReal (fmtOf e.1) v.toNat).withFp ix false false false false)) ∧
    (∀ f ∈ [Fmt.real, Fmt.long], ∀ (w : Nat) (rc : BitVec 2) (p q : Bool) (m n : Nat) (x y : Int),
      ((FVal.fin p m x).rat + (FVal.fin q n y).rat ≠ 0 →
        ∃ (k : Nat) (z : Int), Stands f.prec k z false |(FVal.fin p m x).rat + (FVal.fin q n y).rat| ∧
          f.add w rc (.fin p m x) (.fin q n y) =
            f.deliver w rc (decide ((FVal.fin p m x).rat + (FVal.fin q n y).rat < 0)) k z false) ∧
        ((FVal.fin p m x).rat + (FVal.fin q n y).rat = 0 →
          f.add w rc (.fin p m x) (.fin q n y) =
            .exact (f.zero (if m = 0 ∧ n = 0 ∧ p = q then p else decide (rc = 2)))) ∧
        (m ≠ 0 → n ≠ 0 →
          (∃ (k : Nat) (z : Int), Stands f.prec k z false |(FVal.fin p m x).rat * (FVal.fin q n y).rat| ∧
            f.mul w rc (.fin p m x) (.fin q n y) = f.deliver w rc (p != q) k z false) ∧
            ∃ (k : Nat) (z : Int) (st : Bool), Stands f.prec k z st |(FVal.fin p m x).rat / (FVal.fin q n y).rat| ∧
              f.div w rc (.fin p m x) (.fin q n y) = f.deliver w rc (p != q) k z st) ∧
        (m = 0 ∨ n = 0 → f.mul w rc (.fin p m x) (.fin q n y) = .exact (f.zero (p != q))) ∧
        (m = 0 → n ≠ 0 → f.div w rc (.fin p m x) (.fin q n y) = .exact (f.zero (p != q)))) ∧
      (∀ f ∈ [Fmt.real, Fmt.long], ∀ (p : PsReg) (x : Nat) (n z : Bool), f.isNan x = false →
        (n = true ↔ f.value x = .inf true ∨ ∃ sg m e, f.value x = .fin sg m e ∧ (FVal.fin sg m e).rat < 0) →
          (z = true ↔ ∃ sg m e, f.value x = .fin sg m e ∧ (FVal.fin sg m e).rat = 0) →
            p.withReal f x = { p with fC := n, fN := n, fZ := z, fV := false, fU := false }) ∧
      ∀ (f : Fmt) (w : Nat) (rc : BitVec 2) (p q : Bool) (m : Nat) (x : Int),
        f.add w rc (.inf p) (.inf p) = .exact (f.inf p) ∧ f.add w rc (.inf p) (.fin q m x) = .exact (f.inf p) ∧
          f.add w rc (.fin q m x) (.inf p) = .exact (f.inf p) ∧
          f.mul w rc (.inf p) (.inf q) = .exact (f.inf (p != q)) ∧
          (m ≠ 0 → f.mul w rc (.inf p) (.fin q m x) = .exact (f.inf (p != q)) ∧
            f.mul w rc (.fin q m x) (.inf p) = .exact (f.inf (q != p))) ∧
          f.div w rc (.inf p) (.fin q m x) = .exact (f.inf (p != q)) ∧
          f.div w rc (.fin q m x) (.inf p) = .exact (f.zero (q != p))

/-- An underflow, overflow or enabled inexact result is stored, the first two with the wrapped exponent, and then takes
interrupt 6, 8 or 5 with `pc0` pushed and FR holding the rounding bits and the operands' classes (R306, R313): ADD,
SUB, SBR, MUL, DIV, DVR, CVLR and CVRL; SQT, CVWR, CVRW and CVLW for the inexact one, of which CVWR records the sign of
the whole number; and REM for underflow. That the fields E1, F1 and I1 of a whole number are unused, and 0, is the model's
reading (log 8, DESIGN CHOICE), and so is that the flags of a REM that underflows come from the exact remainder (log 19,
DEDUCED). A wrapped result that is still out of range, whose pattern is a free value (log 30), is not among these. -/
def Obligations.RealSignals : Prop :=
  (∀ e ∈ realOperations, ∀ (v : BitVec e.1.bits) (ix uf ov g r u : Bool) (n : Nat),
     ModifySignals e.1 e.1 e.2.1 n
       (fun s a b => realOutcome e s a b = .store (some v.toNat) ix uf ov g r u ∧
         ((uf = true ∧ n = 6) ∨ (uf = false ∧ ov = true ∧ n = 8) ∨
           (uf = false ∧ ov = false ∧ ix = true ∧ s.iixEnabled = true ∧ n = 5)))
       (fun _ _ _ => v)
       (fun s _ _ => (s.ps.withReal (fmtOf e.1) v.toNat).withFp ix uf false ov false)
       (fun a b => some ⟨u, r, g, frOperand (fmtOf e.1) a.toNat, frOperand (fmtOf e.1) b.toNat⟩)) ∧
    (∀ p ∈ [(OpType.l, OpType.r, Instr.cvlr), (.r, .l, .cvrl)], ∀ (v : BitVec p.2.1.bits) (ix uf ov g r u : Bool) (n : Nat),
       WriteSignals p.1 p.2.1 p.2.2 n
         (fun s a =>
           (fmtOf p.2.1).deliverValue ((fmtOf p.2.1).wrap s.cfg) s.ps.rc ((fmtOf p.1).value a.toNat) =
               .store (some v.toNat) ix uf ov g r u ∧
             ((uf = true ∧ n = 6) ∨ (uf = false ∧ ov = true ∧ n = 8) ∨
               (uf = false ∧ ov = false ∧ ix = true ∧ s.iixEnabled = true ∧ n = 5)))
         (fun _ _ => v)
         (fun s _ => (s.ps.withReal (fmtOf p.2.1) v.toNat).withFp ix uf false ov false)
         (fun a => some ⟨u, r, g, frOperand (fmtOf p.1) a.toNat, .unused⟩)) ∧
    (∀ p ∈ [(OpType.r, Instr.sqtr), (.l, .sqtl)], ∀ (v : BitVec p.1.bits) (g r u : Bool),
      WriteSignals p.1 p.1 p.2 5
        (fun s a => (fmtOf p.1).sqrt s.ps.rc ((fmtOf p.1).value a.toNat) = .store (some v.toNat) true false false g r u ∧
          s.iixEnabled = true)
        (fun _ _ => v)
        (fun s _ => (s.ps.withReal (fmtOf p.1) v.toNat).withFp true false false false false)
        (fun a => some ⟨u, r, g, frOperand (fmtOf p.1) a.toNat, .unused⟩)) ∧
    (∀ (v : Word) (g r u : Bool),
      WriteSignals .w .r .cvwr 5
        (fun s a => Fmt.real.ofInt s.ps.rc a.toInt = .store (some v.toNat) true false false g r u ∧
          s.iixEnabled = true)
        (fun _ _ => v)
        (fun s _ => (s.ps.withReal .real v.toNat).withFp true false false false false)
        (fun a => some ⟨u, r, g, ⟨a.msb, false, false, false⟩, .unused⟩)) ∧
    (∀ p ∈ [(OpType.r, Instr.cvrw), (.l, .cvlw)], ∀ (sg : Bool) (m : Nat) (e : Int) (rc : BitVec 2),
      WriteSignals p.1 .w p.2 5
        (fun s a => (fmtOf p.1).value a.toNat = .fin sg m e ∧ s.ps.rc = rc ∧
          (outOfRange 32 (roundToInt rc sg m e).value && s.ivEnabled) = false ∧
          ((roundToInt rc sg m e).guard || (roundToInt rc sg m e).rest) = true ∧ s.iixEnabled = true)
        (fun _ _ => BitVec.ofInt 32 (roundToInt rc sg m e).value)
        (fun s _ =>
          (s.ps.withArith s.ps.fC (outOfRange 32 (roundToInt rc sg m e).value)
            (decide ((roundToInt rc sg m e).value < 0)) (BitVec.ofInt 32 (roundToInt rc sg m e).value == 0)).withFp
              true false false false false)
        (fun a => some ⟨(roundToInt rc sg m e).up, (roundToInt rc sg m e).rest, (roundToInt rc sg m e).guard,
          frOperand (fmtOf p.1) a.toNat, .unused⟩)) ∧
    ∀ p ∈ [(OpType.r, Instr.remr), (.l, .reml)], ∀ (v : BitVec p.1.bits) (ix g r u : Bool) (x : FVal),
      ModifySignals p.1 p.1 p.2 6
        (fun s a b =>
          (fmtOf p.1).rem ((fmtOf p.1).wrap s.cfg) s.ps.rc ((fmtOf p.1).value b.toNat) ((fmtOf p.1).value a.toNat) =
              .store (some v.toNat) ix true false g r u ∧
            remValue ((fmtOf p.1).value b.toNat) ((fmtOf p.1).value a.toNat) = some x)
        (fun _ _ _ => v)
        (fun s a _ => remFlags s.ps x ((fmtOf p.1).value a.toNat) true)
        (fun a b => some ⟨u, r, g, frOperand (fmtOf p.1) a.toNat, frOperand (fmtOf p.1) b.toNat⟩)

/-- Invalid Operation takes 9 and Floating Zero Divide takes 7, with nothing stored, `pc0` pushed, the one exception flag
set, and V and U cleared (R310, R311, R313); a NaN operand is Invalid in every arithmetic instruction, SGN, NEG, REM, SQT
and the conversions from a real included, and so are the sum of opposite infinities, zero times infinity, 0/0,
infinity/infinity, a negative operand of SQT, and a zero divisor or an infinite dividend of REM. -/
def Obligations.RealTraps : Prop :=
  ((∀ e ∈ realOperations,
     ModifyRaises e.1 e.1 e.2.1 9 (fun s a b => realOutcome e s a b = .invalid)
       (fun s _ _ => ({ s.ps with fV := false, fU := false }).withFp false false false false true)
       (fun a b => some ⟨false, false, false, frOperand (fmtOf e.1) a.toNat, frOperand (fmtOf e.1) b.toNat⟩) ∧
       ModifyRaises e.1 e.1 e.2.1 7 (fun s a b => realOutcome e s a b = .zeroDivide)
         (fun s _ _ => ({ s.ps with fV := false, fU := false }).withFp false false true false false)
         (fun a b => some ⟨false, false, false, frOperand (fmtOf e.1) a.toNat, frOperand (fmtOf e.1) b.toNat⟩) ∧
       ∀ (s : State) (a b : BitVec e.1.bits),
         (fmtOf e.1).isNan a.toNat = true ∨ (fmtOf e.1).isNan b.toNat = true → realOutcome e s a b = .invalid) ∧
     ∀ (f : Fmt) (w : Nat) (rc : BitVec 2) (p q : Bool) (m : Nat) (x y : Int),
       f.add w rc (.inf p) (.inf (!p)) = .invalid ∧ f.mul w rc (.fin q 0 x) (.inf p) = .invalid ∧
         f.mul w rc (.inf p) (.fin q 0 x) = .invalid ∧ f.div w rc (.fin p 0 x) (.fin q 0 y) = .invalid ∧
         f.div w rc (.inf p) (.inf q) = .invalid ∧ (m ≠ 0 → f.div w rc (.fin p m x) (.fin q 0 y) = .zeroDivide)) ∧
    (∀ p ∈ [(OpType.r, OpType.r, Instr.negr), (.l, .l, .negl), (.r, .r, .sqtr), (.l, .l, .sqtl), (.l, .r, .cvlr),
        (.r, .l, .cvrl), (.r, .w, .cvrw), (.l, .w, .cvlw)],
      WriteRaises p.1 p.2.1 p.2.2 9 (fun _ a => (fmtOf p.1).isNan a.toNat = true)
        (fun s _ => ({ s.ps with fV := false, fU := false }).withFp false false false false true)
        (fun a => some ⟨false, false, false, frOperand (fmtOf p.1) a.toNat, .unused⟩)) ∧
      (∀ p ∈ [(OpType.r, Instr.sqtr), (.l, .sqtl)],
        WriteRaises p.1 p.1 p.2 9 (fun _ a => (fmtOf p.1).isNeg a.toNat = true)
          (fun s _ => ({ s.ps with fV := false, fU := false }).withFp false false false false true)
          (fun a => some ⟨false, false, false, frOperand (fmtOf p.1) a.toNat, .unused⟩)) ∧
      (∀ p ∈ [(OpType.r, Instr.sgnr), (.l, .sgnl), (.r, .remr), (.l, .reml)],
        ModifyRaises p.1 p.1 p.2 9 (fun _ a b => (fmtOf p.1).isNan a.toNat = true ∨ (fmtOf p.1).isNan b.toNat = true)
          (fun s _ _ => ({ s.ps with fV := false, fU := false }).withFp false false false false true)
          (fun a b => some ⟨false, false, false, frOperand (fmtOf p.1) a.toNat, frOperand (fmtOf p.1) b.toNat⟩)) ∧
      ∀ p ∈ [(OpType.r, Instr.remr), (.l, .reml)], ∀ sg : Bool,
        ModifyRaises p.1 p.1 p.2 9
          (fun _ a b => (fmtOf p.1).isZero a.toNat = true ∨ (fmtOf p.1).value b.toNat = .inf sg)
          (fun s _ _ => ({ s.ps with fV := false, fU := false }).withFp false false false false true)
          (fun a b => some ⟨false, false, false, frOperand (fmtOf p.1) a.toNat, frOperand (fmtOf p.1) b.toNat⟩)

/-- Rounding and delivery (R305, R306, R308). A positive number is rounded to the precision as `RoundsTo` says, once. It
is delivered by its exact size and its rounded one: below the smallest normalized number it underflows and is stored
with the exponent increased by the wrap offset, above the largest it overflows and is stored with the exponent
decreased by it, and otherwise it is stored as it is. What is stored is the rounded number itself, its sign and its
significand, wherever the format holds it normalized, and a number the format holds is delivered without rounding or
exception, however its magnitude is written. -/
def Obligations.Rounding : Prop :=
  (∀ (p : Nat) (rc : BitVec 2) (neg : Bool) (q : Nat) (e : Int) (sticky : Bool) (x : ℚ), 2 ≤ p → Stands p q e sticky x →
     RoundsTo p rc neg x (roundSig p rc neg q e sticky) ∧
       ((roundSig p rc neg q e sticky).inexact = false ↔
         x = ((roundSig p rc neg q e sticky).sig : ℚ) * 2 ^ (roundSig p rc neg q e sticky).exp)) ∧
    (∀ f ∈ [Fmt.real, Fmt.long], ∀ (w : Nat) (rc : BitVec 2) (neg : Bool) (q : Nat) (e : Int) (sticky : Bool) (x : ℚ),
      Stands f.prec q e sticky x →
        let r := roundSig f.prec rc neg q e sticky
        (x < 2 ^ (1 - (f.bias : Int)) →
          f.deliver w rc neg q e sticky =
            .store (f.pack neg r.sig (r.exp + w)) r.inexact true false r.guard r.rest r.up) ∧
          (2 ^ (1 - (f.bias : Int)) ≤ x → (2 : ℚ) ^ ((f.bias : Int) + 1) ≤ (r.sig : ℚ) * 2 ^ r.exp →
            f.deliver w rc neg q e sticky =
              .store (f.pack neg r.sig (r.exp - w)) r.inexact false true r.guard r.rest r.up) ∧
          (2 ^ (1 - (f.bias : Int)) ≤ x → (r.sig : ℚ) * 2 ^ r.exp < (2 : ℚ) ^ ((f.bias : Int) + 1) →
            f.deliver w rc neg q e sticky =
              .store (f.pack neg r.sig r.exp) r.inexact false false r.guard r.rest r.up)) ∧
    (∀ f ∈ [Fmt.real, Fmt.long], ∀ (neg : Bool) (sig : Nat) (e : Int), 2 ^ (f.prec - 1) ≤ sig → sig < 2 ^ f.prec →
      (∀ v, f.pack neg sig e = some v → v < 2 ^ (f.prec + f.eBits) ∧ f.value v = .fin neg sig e) ∧
        (f.pack neg sig e = none ↔
          (sig : ℚ) * 2 ^ e < 2 ^ (1 - (f.bias : Int)) ∨ (2 : ℚ) ^ ((f.bias : Int) + 1) ≤ (sig : ℚ) * 2 ^ e)) ∧
    ∀ f ∈ [Fmt.real, Fmt.long], ∀ (w : Nat) (rc : BitVec 2) (x k : Nat), x < 2 ^ (f.prec + f.eBits) →
      0 < f.expo x → f.expo x < f.emax →
        f.deliver w rc (f.sign x) ((2 ^ (f.prec - 1) + f.frac x) * 2 ^ k)
          ((f.expo x : Int) - f.bias - (f.prec - 1 : Nat) - k) false = .exact x

/-- REM and SQT (R340, R342): the delivered remainder is stored, with Z where the exact remainder's magnitude is below src's
and C and N where it is below zero (log 19, DEDUCED), V, U and every exception flag but UF cleared; the exact remainder of finite numbers is what dsrc leaves beside a whole multiple of src, with dsrc's sign and
a magnitude below src's, and dsrc itself where src is infinite; it is delivered as `Rounding` says, a zero with dsrc's
sign. The root is stored with the flags of real arithmetic; it is the exact root rounded, found from a whole root that
is exact. That one REM reduces fully is the spec's decision D55. -/
def Obligations.RealRemaindersRoots : Prop :=
  (∀ p ∈ [(OpType.r, Instr.remr), (.l, .reml)], ∀ (v : BitVec p.1.bits) (ix g r u : Bool) (x : FVal),
    Modifies p.1 p.1 p.2
      (fun s a b =>
        (fmtOf p.1).rem ((fmtOf p.1).wrap s.cfg) s.ps.rc ((fmtOf p.1).value b.toNat) ((fmtOf p.1).value a.toNat) =
            .store (some v.toNat) ix false false g r u ∧
          remValue ((fmtOf p.1).value b.toNat) ((fmtOf p.1).value a.toNat) = some x ∧ (ix && s.iixEnabled) = false)
      (fun _ _ _ => v)
      (fun s a _ => remFlags s.ps x ((fmtOf p.1).value a.toNat) false)) ∧
    (∀ p ∈ [(OpType.r, Instr.sqtr), (.l, .sqtl)], ∀ (v : BitVec p.1.bits) (ix g r u : Bool),
      Writes p.1 p.1 p.2
        (fun s a => (fmtOf p.1).sqrt s.ps.rc ((fmtOf p.1).value a.toNat) = .store (some v.toNat) ix false false g r u ∧
          (ix && s.iixEnabled) = false)
        (fun _ _ => v)
        (fun s _ => (s.ps.withReal (fmtOf p.1) v.toNat).withFp ix false false false false)) ∧
    (∀ (sd ss : Bool) (md ms : Nat) (ed es : Int),
      remValue (.fin sd md ed) (.inf ss) = some (.fin sd md ed) ∧
        (ms ≠ 0 → ∃ m k, remValue (.fin sd md ed) (.fin ss ms es) = some (.fin sd m (min ed es)) ∧
          md * 2 ^ (ed - min ed es).toNat = k * (ms * 2 ^ (es - min ed es).toNat) + m ∧
          m < ms * 2 ^ (es - min ed es).toNat)) ∧
    (∀ (f : Fmt) (w : Nat) (rc : BitVec 2) (d s : FVal) (neg : Bool) (m : Nat) (e : Int),
      remValue d s = some (.fin neg m e) →
        f.rem w rc d s = if m = 0 then .exact (f.zero neg) else f.deliver w rc neg m e false) ∧
    (∀ (p : PsReg) (sg sq : Bool) (m n : Nat) (e y : Int) (uf : Bool),
      let x := (FVal.fin sg m e).rat
      remFlags p (.fin sg m e) (.fin sq n y) uf =
          ({ p with
              fC := decide (x < 0)
              fN := decide (x < 0)
              fZ := decide (|x| < |(FVal.fin sq n y).rat|)
              fV := false
              fU := false }).withFp false uf false false false ∧
        remFlags p (.fin sg m e) (.inf sq) uf =
          ({ p with fC := decide (x < 0), fN := decide (x < 0), fZ := true, fV := false, fU := false }).withFp
            false uf false false false) ∧
    (∀ f ∈ [Fmt.real, Fmt.long], ∀ (rc : BitVec 2) (m : Nat) (e : Int),
      (∀ s, f.sqrt rc (.fin s 0 e) = .exact (f.zero s)) ∧ f.sqrt rc (.inf false) = .exact (f.inf false) ∧
        (m ≠ 0 → ∃ (q : Nat) (z : Int) (st : Bool), 2 ^ (f.prec + 1) ≤ q ∧
          ((q : ℚ) * 2 ^ z) ^ 2 ≤ (FVal.fin false m e).rat ∧ (FVal.fin false m e).rat < (((q : ℚ) + 1) * 2 ^ z) ^ 2 ∧
          (st = true ↔ ((q : ℚ) * 2 ^ z) ^ 2 ≠ (FVal.fin false m e).rat) ∧
          f.sqrt rc (.fin false m e) =
            .store (f.pack false (roundSig f.prec rc false q z st).sig (roundSig f.prec rc false q z st).exp)
              (roundSig f.prec rc false q z st).inexact false false (roundSig f.prec rc false q z st).guard
              (roundSig f.prec rc false q z st).rest (roundSig f.prec rc false q z st).up)) ∧
    ∀ n, isqrt n * isqrt n ≤ n ∧ n < (isqrt n + 1) * (isqrt n + 1)

/-- CMPR and CMPL (R334): U alone where an operand is a NaN, and otherwise C and N where src is below dsrc and Z where
they are numerically equal, so that the two zeros are; the exception flags are cleared; nothing is stored. The order
is that of the numbers, minus infinity below them all and plus infinity above. -/
def Obligations.RealCompares : Prop :=
  (∀ p ∈ [(OpType.r, Instr.cmpr), (.l, .cmpl)],
    Compares p.1 p.2 (fun s a b =>
      if (fmtOf p.1).isNan a.toNat = true ∨ (fmtOf p.1).isNan b.toNat = true then
        ({ s.ps with fU := true, fC := false, fN := false, fZ := false, fV := false }).clearFp
      else
        ({ s.ps with
            fC := ((fmtOf p.1).value a.toNat).lt ((fmtOf p.1).value b.toNat)
            fN := ((fmtOf p.1).value a.toNat).lt ((fmtOf p.1).value b.toNat)
            fZ := ((fmtOf p.1).value a.toNat).eq ((fmtOf p.1).value b.toNat)
            fV := false
            fU := false }).clearFp)) ∧
    ∀ (p q : Bool) (m n : Nat) (x y : Int),
      (FVal.lt (.fin p m x) (.fin q n y) = true ↔ (FVal.fin p m x).rat < (FVal.fin q n y).rat) ∧
        (FVal.eq (.fin p m x) (.fin q n y) = true ↔ (FVal.fin p m x).rat = (FVal.fin q n y).rat) ∧
        FVal.lt (.inf p) (.fin q n y) = p ∧ FVal.lt (.fin p m x) (.inf q) = !q ∧
        FVal.lt (.inf p) (.inf q) = (p && !q) ∧ FVal.eq (.inf p) (.inf q) = (p == q) ∧
        FVal.eq (.inf p) (.fin q n y) = false ∧ FVal.eq (.fin p m x) (.inf q) = false

/-- CVBR, CVHR, CVWR, CVBL, CVHL, CVWL, CVLR and CVRL with a result in range: the delivered result is stored with the
flags of real arithmetic. What is delivered of a whole number is that number rounded to the format's precision (as
`Rounding` says), never outside its range, and of a real the number itself, a zero or an infinity with its sign. -/
def Obligations.ConversionsToReal : Prop :=
  (∀ p ∈ [(OpType.b, OpType.r, Instr.cvbr), (.h, .r, .cvhr), (.w, .r, .cvwr), (.b, .l, .cvbl), (.h, .l, .cvhl),
      (.w, .l, .cvwl)], ∀ (v : BitVec p.2.1.bits) (ix g r u : Bool),
    Writes p.1 p.2.1 p.2.2
      (fun s a => (fmtOf p.2.1).ofInt s.ps.rc a.toInt = .store (some v.toNat) ix false false g r u ∧
        (ix && s.iixEnabled) = false)
      (fun _ _ => v)
      (fun s _ => (s.ps.withReal (fmtOf p.2.1) v.toNat).withFp ix false false false false)) ∧
    (∀ p ∈ [(OpType.l, OpType.r, Instr.cvlr), (.r, .l, .cvrl)], ∀ (v : BitVec p.2.1.bits) (ix g r u : Bool),
      Writes p.1 p.2.1 p.2.2
        (fun s a =>
          (fmtOf p.2.1).deliverValue ((fmtOf p.2.1).wrap s.cfg) s.ps.rc ((fmtOf p.1).value a.toNat) =
              .store (some v.toNat) ix false false g r u ∧
            (ix && s.iixEnabled) = false)
        (fun _ _ => v)
        (fun s _ => (s.ps.withReal (fmtOf p.2.1) v.toNat).withFp ix false false false false)) ∧
    ∀ f ∈ [Fmt.real, Fmt.long], ∀ (w : Nat) (rc : BitVec 2) (i : Int) (neg : Bool) (m : Nat) (e : Int),
      f.ofInt rc 0 = .exact (f.zero false) ∧
        (i ≠ 0 → -(2 ^ 31) ≤ i → i < 2 ^ 31 → ∃ v,
          f.pack (decide (i < 0)) (roundSig f.prec rc (decide (i < 0)) i.natAbs 0 false).sig
              (roundSig f.prec rc (decide (i < 0)) i.natAbs 0 false).exp = some v ∧
            f.ofInt rc i =
              .store (some v) (roundSig f.prec rc (decide (i < 0)) i.natAbs 0 false).inexact false false
                (roundSig f.prec rc (decide (i < 0)) i.natAbs 0 false).guard
                (roundSig f.prec rc (decide (i < 0)) i.natAbs 0 false).rest
                (roundSig f.prec rc (decide (i < 0)) i.natAbs 0 false).up) ∧
        f.deliverValue w rc (.inf neg) = .exact (f.inf neg) ∧
        f.deliverValue w rc (.fin neg m e) = if m = 0 then .exact (f.zero neg) else f.deliver w rc neg m e false

/-- CVRW and CVLW (R352, R353): a finite operand rounded by RC to a whole number, its low 32 bits stored, V where it does
not fit, N its sign, Z the stored Word zero, C unchanged, IX where rounding changed it, where neither integer overflow
nor the inexact result is delivered (`IntegerOverflow` and `RealSignals` say what happens there). The whole number is the
nearest, the even one of two, by mode 0, the one above by mode 1, the one below by mode 2 and the one toward zero by mode
3. An infinite operand stores a free Word with V set and N its sign (U11 leaves the Word open; that a draw from the
counter of free values gives it is the model's choice, log 7). -/
def Obligations.ConversionsToWord : Prop :=
  (∀ p ∈ [(OpType.r, Instr.cvrw), (.l, .cvlw)], ∀ (sg : Bool) (m : Nat) (e : Int) (rc : BitVec 2),
    Writes p.1 .w p.2
      (fun s a => (fmtOf p.1).value a.toNat = .fin sg m e ∧ s.ps.rc = rc ∧
        (outOfRange 32 (roundToInt rc sg m e).value && s.ivEnabled) = false ∧
        (((roundToInt rc sg m e).guard || (roundToInt rc sg m e).rest) && s.iixEnabled) = false)
      (fun _ _ => BitVec.ofInt 32 (roundToInt rc sg m e).value)
      (fun s _ =>
        ({ s.ps with
            fV := outOfRange 32 (roundToInt rc sg m e).value
            fN := decide ((roundToInt rc sg m e).value < 0)
            fZ := BitVec.ofInt 32 (roundToInt rc sg m e).value == 0
            fU := false }).withFp ((roundToInt rc sg m e).guard || (roundToInt rc sg m e).rest) false false false
          false)) ∧
    (∀ (rc : BitVec 2) (sg : Bool) (m : Nat) (e : Int),
      let x := (FVal.fin sg m e).rat
      let r := roundToInt rc sg m e
      ((r.guard || r.rest) = true ↔ (r.value : ℚ) ≠ x) ∧
        (rc = 0 → 2 * |(r.value : ℚ) - x| ≤ 1 ∧ (2 * |(r.value : ℚ) - x| = 1 → r.value % 2 = 0)) ∧
        (rc = 1 → r.value = ⌈x⌉) ∧ (rc = 2 → r.value = ⌊x⌋) ∧ (rc = 3 → r.value = if x < 0 then ⌈x⌉ else ⌊x⌋)) ∧
    ∀ p ∈ [(OpType.r, Instr.cvrw), (.l, .cvlw)],
      ∀ (src des : Ref) (s s₁ s₂ s₄ : State) (l₁ l₂ : Loc) (a : BitVec p.1.bits) (sg : Bool) (q : PsReg),
        Runs (p.2 src des) s → evalBoth p.1 .w .write src des s = .ok (l₁, l₂) s₁ → readLoc p.1 l₁ s₁ = .ok a s₂ →
          (fmtOf p.1).value a.toNat = .inf sg → s.ivEnabled = false →
            q = ({ s.ps with fV := true, fN := sg, fZ := s.freeNext 32 == 0, fU := false }).clearFp →
              writeLoc .w l₂ (s.freeNext 32) (s₂.drew 1) = .ok () s₄ → (s₄.withPs q).Settled →
                (src = .stk ∨ des = .stk → 2048 ≤ s₄.sp.toNat) →
                  exec (p.2 src des) s = .next ((s₄.withPs q).goesOn (p.2 src des) s)

/-! ## Control -/

/-- JMP and the conditional branches (R370, R371, R391): the reference is always evaluated; control passes to the target
where the condition of the flags holds, and otherwise goes on. The four signed branches do so where U is clear; where
it is set they take Invalid Operation with IN set, no other flag changed and `pc0` pushed (R390). -/
def Obligations.Branches : Prop :=
  (∀ p ∈ branchTable, ∀ (src : Ref) (s s₁ : State) (t : Word), s.ps.rep = 0 → evalTarget s.sp (s.pc + 2) src s = .ok t s₁ →
       (p.2.1 && s.ps.fU) = false → s₁.Settled →
         exec (p.1 src) s =
           .next (if p.2.2 s.ps then s₁.jumpTo s.pc t else s₁.onward s.pc (pcNext (p.1 src) s))) ∧
    ∀ mk ∈ [Instr.bg, .bge, .bl, .ble], ∀ (src : Ref) (s s₁ : State) (t : Word), s.ps.rep = 0 →
      evalTarget s.sp (s.pc + 2) src s = .ok t s₁ → s.ps.fU = true →
        exec (mk src) s = takes 9 s.pc ((s₁.withPs { s.ps with fIN := true }).noteExecuted s.pc)

/-- The target of an address form (R180): relative to the instruction for a literal and for Register Direct, the
effective address otherwise; no data is read through it. -/
def Obligations.Targets : Prop :=
  ∀ (sp0 w : Word) (s : State),
    (∀ k, evalTarget sp0 w (.lit k) s = .ok (s.pc + k.signExtend 32) s) ∧
      (∀ n, evalTarget sp0 w (.reg n) s = .ok (s.pc + s.reg n) s) ∧
      (∀ n, evalTarget sp0 w (.autoInc n) s = .ok (s.reg n) (s.setReg n (s.reg n + 4))) ∧
      evalTarget sp0 w .stk s = .ok s.sp s ∧ (∀ v, evalTarget sp0 w (.imm v) s = .trap 16 w s) ∧
      ∀ (r : Ref) (a : Word) (t : State), evalRef .address 4 sp0 w r s = .ok (.mem a) t →
        evalTarget sp0 w r s = .ok a t

/-- CALL pushes the address of the next instruction and goes to the target found before the push; RET pops pc; RETP
reads its operand, pops pc and adds the operand to SP (R386 to R388). Only the pushed bytes of memory change, no agent
moving meanwhile. A push and a pop of a Word complete where its four bytes are there and no agent moves (R501). -/
def Obligations.Calls : Prop :=
  (∀ (src : Ref) (s s₁ s₂ : State) (t : Word), s.ps.rep = 0 → evalTarget s.sp (s.pc + 2) src s = .ok t s₁ →
    push4 (pcNext (.call src) s) s₁ = .ok () s₂ → s₂.Settled → 2048 ≤ s₂.sp.toNat →
      exec (.call src) s = .next (s₂.jumpTo s.pc t) ∧ s₂.sp = s.sp - 4 ∧
        (s.bus = [] → s.mem.wf = true → s₂.mem.readN s₂.sp.toNat 4 = (pcNext (.call src) s).toNat ∧
          ∀ x, x < s₂.sp.toNat ∨ s₂.sp.toNat + 4 ≤ x → s₂.mem.read x = s.mem.read x)) ∧
    (∀ (s s₁ : State) (t : Word), s.ps.rep = 0 → pop4 s = .ok t s₁ → s₁.Settled → 2048 ≤ s₁.sp.toNat →
      exec .ret s = .next (s₁.jumpTo s.pc t) ∧ s₁.sp = s.sp + 4 ∧ s₁.regs = s.regs ∧
        (s.bus = [] → t = BitVec.ofNat 32 (s.mem.readN s.sp.toNat 4) ∧ s₁.mem = s.mem)) ∧
    (∀ (src : Ref) (s s₁ s₂ s₃ : State) (l : Loc) (k t : Word), s.ps.rep = 0 →
      evalRef .src 4 s.sp (s.pc + 2) src s = .ok l s₁ → readLoc .w l s₁ = .ok k s₂ → pop4 s₂ = .ok t s₃ →
        ({ s₃ with sp := s₃.sp + k } : State).Settled → 2048 ≤ (s₃.sp + k).toNat →
          exec (.retp src) s = .next ({ s₃ with sp := s₃.sp + k }.jumpTo s.pc t) ∧ (s.bus = [] → s₃.mem = s.mem)) ∧
    ∀ s : State, s.bus = [] →
      (∀ v, (s.sp - 4).toNat + 4 ≤ s.cfg.memSize → (s.sp - 4).toNat + 4 ≤ 2 ^ 32 →
        ∃ u, push4 v s = .ok () u ∧ u = { s with sp := s.sp - 4, mem := u.mem, fetch := u.fetch }) ∧
        (s.sp.toNat + 4 ≤ s.cfg.memSize → s.sp.toNat + 4 ≤ 2 ^ 32 →
          pop4 s = .ok (BitVec.ofNat 32 (s.mem.readN s.sp.toNat 4)) { s with sp := s.sp + 4 })

/-- MOVA stores the address its first reference names, with no flag changed; REP, REPZ and REPNZ set PS.REP and
PS.REPREG and change no register; another mode than Register Direct takes interrupt 16 with PS unchanged. That MOVA reads
the register of a Register Direct source where it evaluates that reference, before the destination's mode moves the
same register, is the model's reading (log 31, DEDUCED). -/
def Obligations.MoveAddressRepeat : Prop :=
  (∀ (src des : Ref) (s s₁ s₂ s₃ : State) (l : Loc) (v : Word), Runs (.mova src des) s →
    evalTarget s.sp (s.pc + 2) src s = .ok v s₁ →
      evalSecond .write .addr (.value .w) s.sp src des s₁ = .ok l s₂ → writeLoc .w l v s₂ = .ok () s₃ →
        s₃.Settled → (des = .stk → 2048 ≤ s₃.sp.toNat) →
          exec (.mova src des) s = .next (s₃.goesOn (.mova src des) s) ∧
            (s.bus = [] → Framed .w src des l s (s₃.onward s.pc (pcNext (.mova src des) s)))) ∧
    ∀ p ∈ [(Instr.rep, 1#2), (.repz, 2#2), (.repnz, 3#2)],
      (∀ (n : Fin 16) (s : State), s.ps.rep = 0 →
        (s.withPs { s.ps with rep := p.2, repReg := BitVec.ofNat 4 n.val }).Settled →
          exec (p.1 (.reg n)) s =
            .next ((s.withPs { s.ps with rep := p.2, repReg := BitVec.ofNat 4 n.val }).onward s.pc (s.pc + 2))) ∧
        ∀ (r : Ref) (s : State), s.ps.rep = 0 → (∀ n, r ≠ .reg n) → (∀ n, r ≠ .missing n) →
          exec (p.1 r) s = takes 16 (s.pc + 2) (s.noteExecuted s.pc)

/-- A repeat that has ended skips the instruction: PS.REP is cleared, pc goes past it, and nothing else changes, no
operand being evaluated (R401); before a branch, under decrement-then-test, the count goes down first and is tested
then (R403). An instruction of an admitted form is skipped even where it names the count register, which the source
leaves to U3 only where it runs (log 15, DEDUCED); that a skipped branch or CALL performs no side effect of its reference
is read from R150 and R403 (log 38, DEDUCED); and a specifier that is an Operand Error raises 16 in a skipped
instruction too, as REP, REPZ, REPNZ, TRAP and a MOVW to a literal show (log 16, DESIGN CHOICE). -/
def Obligations.RepeatSkips : Prop :=
  (∀ (i : Instr) (s : State), i.wellFormed = true → s.ps.rep ≠ 0 → s.Settled →
    ((s.ps.rep = 2 ∧ s.ps.fZ = false) ∨ (s.ps.rep = 3 ∧ s.ps.fZ = true) ∨ s.reg s.ps.repIndex = 0) →
      (isBranch i = true → s.cfg.repBranch = .testThenDecrement) →
        exec i s = .next ((s.withPs { s.ps with rep := 0 }).onward s.pc (pcNext i s))) ∧
    (∀ (i : Instr) (s : State), i.wellFormed = true → s.ps.rep ≠ 0 → s.Settled → isBranch i = true →
      s.cfg.repBranch = .decrementThenTest →
        ((s.ps.rep = 2 ∧ s.ps.fZ = false) ∨ (s.ps.rep = 3 ∧ s.ps.fZ = true) ∨ s.reg s.ps.repIndex = 1) →
          exec i s =
            .next (((s.countDown s.ps.repIndex).withPs { s.ps with rep := 0 }).onward s.pc (pcNext i s))) ∧
    ∀ s : State, s.ps.rep ≠ 0 →
      ((s.ps.rep = 2 ∧ s.ps.fZ = false) ∨ (s.ps.rep = 3 ∧ s.ps.fZ = true) ∨ s.reg s.ps.repIndex = 0) →
        (∀ mk ∈ [Instr.rep, .repz, .repnz, .trap], ∀ b,
          exec (mk (.illegal b)) s = takes 16 (s.pc + 2) (s.noteExecuted s.pc)) ∧
          ∀ (src : Ref) (k : BitVec 6), src.allowed (.value .w) = true → (∀ n, src ≠ .missing n) →
            exec (.movw src (.lit k)) s = takes 16 (afterSpec2 s.pc (.value .w) src) (s.noteExecuted s.pc)

/-- Instructions under a repeat that goes on. One that completes counts the register down, and pc and PS.REP stay
(R401 step 3, R402): the instructions without references, the moves and ADDW show it here, and the others in the
statements of their results, whose premise is `Runs`; an ADDW whose overflow is delivered after its result counts down
first. Where an exception suppresses the result there is no decrement and PS.REP stays set, `pc0` being pushed for an
Address Error and a zero divide, and the address after the specifier for an Operand Error (R402), as MOVW and DIVW
show. REP, REPZ, REPNZ, TRAP, BKPT, RETI, RSET, WAIT and LDPR of PS do not count down, and leave PS and pc as they do
without a repeat (R404). JMP, the conditional branches, CALL, RET and RETP are executed once, after the count went
down and PS.REP was cleared, where the count was not zero under test-then-decrement, or is not zero then under
decrement-then-test; a CALL's return address is that of the REP instruction two bytes before it (R403). -/
def Obligations.RepeatRuns : Prop :=
  ((∀ p ∈ [(Instr.nop, fun s : State => s), (.clc, fun s => s.withPs { s.ps with fC := false }),
       (.stc, fun s => s.withPs { s.ps with fC := true }), (.cmc, fun s => s.withPs { s.ps with fC := !s.ps.fC }),
       (.ei, fun s => s.withPs { s.ps with eIE := true }), (.di, fun s => s.withPs { s.ps with eIE := false }),
       (.eron, fun s => { s with errorFlag := true }), (.erof, fun s => { s with errorFlag := false })],
     ∀ s : State, s.Repeats 0 → (p.2 s).Settled →
       exec p.1 s = .next (((p.2 s).onward s.pc s.pc).countDown s.ps.repIndex)) ∧
    (∀ p ∈ [(OpType.b, Instr.movb), (.h, .movh), (.w, .movw), (.r, .movr), (.l, .movl)],
      ∀ (src des : Ref) (s s₁ s₂ s₄ : State) (l₁ l₂ : Loc) (a : BitVec p.1.bits), s.Repeats 0 →
        namesRegister s.ps.repIndex (p.2 src des) = false →
          evalBoth p.1 p.1 .write src des s = .ok (l₁, l₂) s₁ → readLoc p.1 l₁ s₁ = .ok a s₂ →
            writeLoc p.1 l₂ a s₂ = .ok () s₄ → s₄.Settled → (src = .stk ∨ des = .stk → 2048 ≤ s₄.sp.toNat) →
              exec (p.2 src des) s = .next ((s₄.onward s.pc s.pc).countDown s.ps.repIndex)) ∧
    ∀ (src des : Ref) (s s₁ s₂ s₃ s₄ : State) (l₁ l₂ : Loc) (a b : Word) (q : PsReg), s.Repeats 0 →
      namesRegister s.ps.repIndex (.addw src des) = false →
        evalBoth .w .w .modify src des s = .ok (l₁, l₂) s₁ → readLoc .w l₁ s₁ = .ok a s₂ →
          readLoc .w l₂ s₂ = .ok b s₃ → writeLoc .w l₂ (a + b) s₃ = .ok () s₄ →
            q = { s.ps with
                    fC := decide (2 ^ 32 ≤ a.toNat + b.toNat)
                    fV := outOfRange 32 (a.toInt + b.toInt)
                    fN := decide (a.toInt + b.toInt < 0)
                    fZ := a + b == 0
                    fU := false } →
              (src = .stk → 2048 ≤ s₄.sp.toNat) →
                ((outOfRange 32 (a.toInt + b.toInt) && s.ivEnabled) = false → (s₄.withPs q).Settled →
                  exec (.addw src des) s = .next (((s₄.withPs q).onward s.pc s.pc).countDown s.ps.repIndex)) ∧
                  (outOfRange 32 (a.toInt + b.toInt) = true → s.ivEnabled = true → s₄.bus = [] →
                    exec (.addw src des) s =
                      takes 3 s.pc (((s₄.withPs q).onward s.pc s.pc).countDown s.ps.repIndex))) ∧
    ((∀ (src des : Ref) (s s₁ : State) (n : Nat) (a : Word), s.Repeats 0 →
       namesRegister s.ps.repIndex (.movw src des) = false → evalBoth .w .w .write src des s = .trap n a s₁ →
         exec (.movw src des) s = takes n a (s₁.noteExecuted s.pc) ∧ s₁.ps = s.ps ∧
           s₁.reg s.ps.repIndex = s.reg s.ps.repIndex ∧
           ((n = 11 ∧ a = s.pc) ∨ (n = 16 ∧ (a = s.pc + 2 ∨ a = afterSpec2 s.pc (.value .w) src)))) ∧
      (∀ (src des : Ref) (s s₁ s₂ : State) (l₁ l₂ : Loc) (n : Nat) (a : Word), s.Repeats 0 →
        namesRegister s.ps.repIndex (.movw src des) = false → evalBoth .w .w .write src des s = .ok (l₁, l₂) s₁ →
          (readLoc .w l₁ s₁ = .trap n a s₂ ∨
              ∃ v s₀, readLoc .w l₁ s₁ = .ok v s₀ ∧ writeLoc .w l₂ v s₀ = .trap n a s₂) →
            n = 11 ∧ a = s.pc ∧ exec (.movw src des) s = takes 11 s.pc (s₂.noteExecuted s.pc) ∧ s₂.ps = s.ps ∧
              s₂.reg s.ps.repIndex = s.reg s.ps.repIndex) ∧
      ∀ (src des : Ref) (s s₁ s₂ s₃ : State) (l₁ l₂ : Loc) (b : Word), s.Repeats 0 →
        namesRegister s.ps.repIndex (.divw src des) = false →
          evalBoth .w .w .modify src des s = .ok (l₁, l₂) s₁ → readLoc .w l₁ s₁ = .ok 0 s₂ →
            readLoc .w l₂ s₂ = .ok b s₃ →
              exec (.divw src des) s = takes 4 s.pc (s₃.noteExecuted s.pc) ∧ s₃.ps = s.ps ∧
                s₃.reg s.ps.repIndex = s.reg s.ps.repIndex) ∧
    (∀ s : State, s.Repeats 0 →
      (∀ p ∈ [(Instr.rep, 1#2), (.repz, 2#2), (.repnz, 3#2)], ∀ n : Fin 16, n ≠ s.ps.repIndex →
        (s.withPs { s.ps with rep := p.2, repReg := BitVec.ofNat 4 n.val }).Settled →
          exec (p.1 (.reg n)) s =
            .next ((s.withPs { s.ps with rep := p.2, repReg := BitVec.ofNat 4 n.val }).onward s.pc (s.pc + 2))) ∧
        (∀ t, enter 2 (s.pc + 1) (s.noteExecuted s.pc) = .ok () t → t.bus = [] → t.ueLatch = none →
          asyncNumber t = none → exec .bkpt s = .next t) ∧
        (∀ (src : Ref) (s₁ s₂ t : State) (l : Loc) (n : Byte), namesRegister s.ps.repIndex (.trap src) = false →
          evalRef .src 1 s.sp (s.pc + 2) src s = .ok l s₁ → readLoc .b l s₁ = .ok n s₂ →
            enter n.toNat (pcNext (.trap src) s) (s₂.noteExecuted s.pc) = .ok () t → t.bus = [] → t.ueLatch = none →
              asyncNumber t = none → exec (.trap src) s = .next t) ∧
        (∀ (s₁ : State) (a : Word), returnFromInterrupt s = .ok a s₁ → s₁.Settled → 2048 ≤ s₁.sp.toNat →
          exec .reti s = .next (s₁.jumpTo s.pc a)) ∧
        (s.bus = [] → s.ps.eT = false → asyncNumber s.rset = none →
          exec .rset s = .next (s.rset.onward s.pc (s.pc + 1))) ∧
        (s.Settled → exec .wait s = .next ({ s with idle := true }.onward s.pc (s.pc + 1))) ∧
        ∀ (src des : Ref) (s₁ s₂ s₃ : State) (l₁ l₂ : Loc) (v : Word),
          namesRegister s.ps.repIndex (.ldpr src des) = false →
            evalBoth .w .b .look src des s = .ok (l₁, l₂) s₁ → readLoc .w l₁ s₁ = .ok v s₂ →
              readLoc .b l₂ s₂ = .ok 1 s₃ → (s₃.withPs (PsReg.ofWord s.cfg v)).Settled →
                (src = .stk → 2048 ≤ s₃.sp.toNat) →
                  exec (.ldpr src des) s =
                    .next ((s₃.withPs (PsReg.ofWord s.cfg v)).onward s.pc (pcNext (.ldpr src des) s))) ∧
    (∀ p ∈ branchTable, ∀ (src : Ref) (s s₁ : State) (t : Word), s.BranchRuns (p.1 src) →
      evalTarget s.sp (s.pc + 2) src s.looped = .ok t s₁ →
        ((p.2.1 && s.ps.fU) = false → s₁.Settled →
          exec (p.1 src) s =
            .next (if p.2.2 s.ps then s₁.jumpTo s.pc t else s₁.onward s.pc (pcNext (p.1 src) s))) ∧
          ((p.2.1 && s.ps.fU) = true →
            exec (p.1 src) s =
              takes 9 s.pc ((s₁.withPs { s.ps with rep := 0, fIN := true }).noteExecuted s.pc))) ∧
    (∀ (src : Ref) (s s₁ s₂ : State) (t : Word), s.BranchRuns (.call src) →
      evalTarget s.sp (s.pc + 2) src s.looped = .ok t s₁ → push4 (s.pc - 2) s₁ = .ok () s₂ → s₂.Settled →
        2048 ≤ s₂.sp.toNat → exec (.call src) s = .next (s₂.jumpTo s.pc t)) ∧
    (∀ (s s₁ : State) (t : Word), s.BranchRuns .ret → pop4 s.looped = .ok t s₁ → s₁.Settled → 2048 ≤ s₁.sp.toNat →
      exec .ret s = .next (s₁.jumpTo s.pc t)) ∧
    (∀ (src : Ref) (s s₁ s₂ s₃ : State) (l : Loc) (k t : Word), s.BranchRuns (.retp src) →
      evalRef .src 4 s.sp (s.pc + 2) src s.looped = .ok l s₁ → readLoc .w l s₁ = .ok k s₂ → pop4 s₂ = .ok t s₃ →
        ({ s₃ with sp := s₃.sp + k } : State).Settled → 2048 ≤ (s₃.sp + k).toNat →
          exec (.retp src) s = .next ({ s₃ with sp := s₃.sp + k }.jumpTo s.pc t)) ∧
    ∀ s : State, s.looped.ps = { s.ps with rep := 0 } ∧ s.looped.reg s.ps.repIndex = s.reg s.ps.repIndex - 1 ∧
      (∀ n, n ≠ s.ps.repIndex → s.looped.reg n = s.reg n) ∧
      s.looped = { s with regs := s.looped.regs, ps := s.looped.ps }

/-! ## System -/

/-- NOP, CLC, STC, CMC, EI and DI are one byte long and change at most the one bit of PS, and nothing else (R410 to R415).
EI is in force for what is selected at its own end: a condition that only the old IE held back is taken there with the
address of the next instruction; and at the end of a DI no asynchronous condition is taken (R414, R415, which the spec
marks as its own inference). -/
def Obligations.FlagInstructions : Prop :=
  (∀ p ∈ [(Instr.nop, 0x0B#8, fun q : PsReg => q), (.clc, 0x1B, fun q => { q with fC := false }),
      (.stc, 0x2B, fun q => { q with fC := true }), (.cmc, 0x3B, fun q => { q with fC := !q.fC }),
      (.ei, 0x8B, fun q => { q with eIE := true }), (.di, 0x9B, fun q => { q with eIE := false })],
    (∀ cfg, encode cfg p.1 = [p.2.1]) ∧
      ∀ s : State, s.ps.rep = 0 → (s.withPs (p.2.2 s.ps)).Settled →
        exec p.1 s = .next ((s.withPs (p.2.2 s.ps)).onward s.pc (s.pc + 1))) ∧
    (∀ (s : State) (n : Nat), s.ps.rep = 0 → s.bus = [] → s.ps.eT = false → s.ueLatch = none →
      asyncNumber (s.withPs { s.ps with eIE := true }) = some n → n ≠ 14 →
        exec .ei s = takes n (s.pc + 1) ((s.withPs { s.ps with eIE := true }).onward s.pc (s.pc + 1))) ∧
    ∀ s : State, s.ps.rep = 0 → s.bus = [] → s.ps.eT = false → s.ueLatch = none →
      exec .di s = .next ((s.withPs { s.ps with eIE := false }).onward s.pc (s.pc + 1))

/-- ERON and EROF set and clear the Error flag; WAIT makes the processor Idle with pc at the next instruction, which is
the spec's decision D56; RSET empties every channel and drops the latched conditions (D57), and changes nothing else:
no General register, Processor register, byte of memory or halfword on a link (R416, R417, R421, R424, R470). -/
def Obligations.NodeInstructions : Prop :=
  (∀ cfg, encode cfg .eron = [0x4B] ∧ encode cfg .erof = [0x5B]) ∧
  (∀ s : State, s.ps.rep = 0 → s.Settled →
    exec .eron s = .next ({ s with errorFlag := true }.onward s.pc (s.pc + 1)) ∧
      exec .erof s = .next ({ s with errorFlag := false }.onward s.pc (s.pc + 1)) ∧
      exec .wait s = .next ({ s with idle := true }.onward s.pc (s.pc + 1))) ∧
    (∀ s : State, s.ps.rep = 0 → s.bus = [] → s.ps.eT = false → asyncNumber s.rset = none →
      exec .rset s = .next (s.rset.onward s.pc (s.pc + 1))) ∧
    ∀ s : State, s.rset =
        { s with inp := s.rset.inp, out := s.rset.out, ceLatch := false, ueLatch := none, ueActive := false } ∧
      (∀ i, s.rset.inPort i = ⟨0, 0, 0, false, false, false⟩) ∧
        ∀ i, s.rset.outPort i = ⟨0, 0, false, (s.outPort i).link⟩

/-- LDPR and STPR (R426, R427): the Word goes to the numbered Processor register; a read-only register is left alone
and CR keeps bits 31:24; STPR stores the register with N its high bit, Z where it is zero, V and U cleared. Under a
repeat both count down, but an LDPR of PS does not (R404). The registers by number (R26), of which the read-only ones
hold, for each port in its bit and 0 elsewhere: P6 output ready, P7 input ready, and, while the input channel is
ready, P10 its latch full, P11 its parity error and P12 its overrun (R40 to R45, R462). -/
def Obligations.ProcessorRegisters : Prop :=
  (∀ (src des : Ref) (s s₁ s₂ s₃ s₄ : State) (l₁ l₂ : Loc) (v : Word) (n : Byte), Runs (.ldpr src des) s →
    evalBoth .w .b .look src des s = .ok (l₁, l₂) s₁ → readLoc .w l₁ s₁ = .ok v s₂ → readLoc .b l₂ s₂ = .ok n s₃ →
      s₃.setProcReg n.toNat v = some s₄ → s₄.Settled → (src = .stk ∨ n = 0 → 2048 ≤ s₄.sp.toNat) →
        exec (.ldpr src des) s =
            .next (if n = 1 then s₄.onward s.pc (pcNext (.ldpr src des) s) else s₄.goesOn (.ldpr src des) s) ∧
          (s.bus = [] → FramedLook src des s s₃)) ∧
    (∀ (s : State) (v : Word),
      s.setProcReg 0 v = some { s with sp := v } ∧ s.setProcReg 1 v = some { s with ps := PsReg.ofWord s.cfg v } ∧
        s.setProcReg 2 v = some { s with fr := v } ∧
        (∃ t, s.setProcReg 3 v = some t ∧ t = { s with cr := t.cr } ∧
          t.cr.extractLsb' 24 8 = s.cr.extractLsb' 24 8 ∧ t.cr.extractLsb' 0 24 = v.extractLsb' 0 24) ∧
        s.setProcReg 4 v = some { s with pi := v } ∧ s.setProcReg 5 v = some { s with tr := v } ∧
        s.setProcReg 8 v = some { s with oe := v } ∧ s.setProcReg 9 v = some { s with ie := v } ∧
        ∀ n ∈ [6, 7, 10, 11, 12], s.setProcReg n v = some s) ∧
    (∀ s : State,
      (List.range 13).map s.procReg =
        [s.sp, s.ps.toWord s.cfg, s.fr, s.cr, s.pi, s.tr, s.readyOut, s.readyIn, s.oe, s.ie, s.pendingIn, s.parityIn,
          s.overrunIn].map some ∧
        (s.cfg.portBit.toList.Nodup →
          (∀ i : Fin 11,
            portFlag s.cfg s.readyOut i = ((s.outPort i).count == 0) ∧
              portFlag s.cfg s.readyIn i = ((s.inPort i).count == 0) ∧
              portFlag s.cfg s.pendingIn i = ((s.inPort i).full && (s.inPort i).count == 0) ∧
              portFlag s.cfg s.parityIn i = ((s.inPort i).perr && (s.inPort i).count == 0) ∧
              portFlag s.cfg s.overrunIn i = ((s.inPort i).ovr && (s.inPort i).count == 0)) ∧
            ∀ b : Fin 32, (∀ i, s.cfg.portBit.get i ≠ b) →
              ∀ w ∈ [s.readyOut, s.readyIn, s.pendingIn, s.parityIn, s.overrunIn], w.getLsbD b.val = false)) ∧
    ∀ (src des : Ref) (s s₁ s₂ s₄ : State) (l₁ l₂ : Loc) (n : Byte) (v : Word) (q : PsReg), Runs (.stpr src des) s →
      evalBoth .b .w .write src des s = .ok (l₁, l₂) s₁ → readLoc .b l₁ s₁ = .ok n s₂ →
        s₂.procReg n.toNat = some v → writeLoc .w l₂ v s₂ = .ok () s₄ →
          q = { s.ps with fN := v.msb, fZ := v == 0, fV := false, fU := false } → (s₄.withPs q).Settled →
            (src = .stk ∨ des = .stk → 2048 ≤ s₄.sp.toNat) →
              exec (.stpr src des) s = .next ((s₄.withPs q).goesOn (.stpr src des) s) ∧
                (s.bus = [] → Framed .w src des l₂ s ((s₄.withPs q).onward s.pc (pcNext (.stpr src des) s)))

/-- PS as a word and as its fields are two views of one register (R27, R32): under every layout that gives its sixteen
low fields different bits, all 32 bits written are read back. -/
def Obligations.StatusImage : Prop :=
  ∀ cfg : Params, cfg.psLow.toList.Nodup →
    (∀ w : Word, (PsReg.ofWord cfg w).toWord cfg = w) ∧ ∀ p : PsReg, PsReg.ofWord cfg (p.toWord cfg) = p

/-! ## Interrupts -/

/-- Taking an interrupt (R500), no agent moving meanwhile: SP goes down by 8, the pushed address is on top and PS below
it, pc and PS come from the vector, Idle ends, and no other register and no other byte of memory changes. An entry
completes wherever its two pushes and its vector fall inside memory (`Refused` says what happens elsewhere). -/
def Obligations.EntrySaves : Prop :=
  (∀ (n : Nat) (a : Word) (s t : State), n < 256 → s.bus = [] → s.mem.wf = true → enter n a s = .ok () t →
    t.sp = s.sp - 8 ∧ t.mem.readN t.sp.toNat 4 = a.toNat ∧
      t.mem.readN (t.sp + 4).toNat 4 = (s.ps.toWord s.cfg).toNat ∧
      t.pc = BitVec.ofNat 32 (t.mem.readN (8 * n) 4) ∧
      t.ps = PsReg.ofWord s.cfg (BitVec.ofNat 32 (t.mem.readN (8 * n + 4) 4)) ∧ t.idle = false ∧ t.pastEnd = false ∧
      (∀ x, x < t.sp.toNat ∨ t.sp.toNat + 8 ≤ x → t.mem.read x = s.mem.read x) ∧
      t.regs = s.regs ∧ t.fr = s.fr ∧ t.cr = s.cr ∧ t.pi = s.pi ∧ t.tr = s.tr ∧ t.oe = s.oe ∧ t.ie = s.ie ∧
      t.inp = s.inp ∧ t.out = s.out ∧ t.errorFlag = s.errorFlag ∧ t.ceLatch = s.ceLatch ∧ t.ueLatch = s.ueLatch ∧
      t.ueActive = s.ueActive ∧ t.events = s.events ∧ t.bus = s.bus ∧ t.free = s.free ∧ t.cfg = s.cfg) ∧
    ∀ (n : Nat) (a : Word) (s : State), n < 256 → s.bus = [] → 8 ≤ s.sp.toNat → s.sp.toNat ≤ s.cfg.memSize →
      8 * n + 8 ≤ s.cfg.memSize → ∃ t, enter n a s = .ok () t

/-- RETI as a handler's first instruction gives the interrupted program back its pc, all of its PS, its SP, its
registers and its memory outside the eight pushed bytes (R420, R503), where nothing waits under the restored PS. -/
def Obligations.ReturnRestores : Prop :=
  ∀ (n : Nat) (a : Word) (s t : State), n < 256 → s.cfg.psLow.toList.Nodup → s.mem.wf = true →
    enter n a s = .ok () t → t.ps.rep = 0 → s.Settled → 2048 ≤ s.sp.toNat →
      ∃ u, exec .reti t = .next u ∧ u.pc = a ∧ u.ps = s.ps ∧ u.sp = s.sp ∧ u.regs = s.regs ∧ u.ueActive = false ∧
        ∀ x, x < s.sp.toNat - 8 ∨ s.sp.toNat ≤ x → u.mem.read x = s.mem.read x

/-- BKPT takes interrupt 2 and TRAP the interrupt its unsigned Byte names, both pushing the address of the next
instruction (R418, R419), where no asynchronous condition waits under the new PS; neither is examined for Stack
Overflow or trace (R493, R498 item 3), TRAP with a stack-mode operand included, which is the model's reading of the
two rules (log 17, DEDUCED), and each is noted as executed in the instruction buffer before its entry (log 14, DESIGN
CHOICE). RETI pops pc and then PS, whatever is on the stack, and ends the handling of an uncorrectable error (R420);
its pops complete where their eight bytes are there and no agent moves. -/
def Obligations.SoftwareEntryReturn : Prop :=
  ((∀ s t : State, s.ps.rep = 0 → enter 2 (s.pc + 1) (s.noteExecuted s.pc) = .ok () t → t.bus = [] → t.ueLatch = none →
     asyncNumber t = none → exec .bkpt s = .next t) ∧
     ∀ (src : Ref) (s s₁ s₂ t : State) (l : Loc) (n : Byte), s.ps.rep = 0 →
       evalRef .src 1 s.sp (s.pc + 2) src s = .ok l s₁ → readLoc .b l s₁ = .ok n s₂ →
         enter n.toNat (pcNext (.trap src) s) (s₂.noteExecuted s.pc) = .ok () t → t.bus = [] → t.ueLatch = none →
           asyncNumber t = none → exec (.trap src) s = .next t) ∧
    (∀ (s s₁ : State) (a : Word), s.ps.rep = 0 → returnFromInterrupt s = .ok a s₁ → s₁.Settled →
      2048 ≤ s₁.sp.toNat →
        exec .reti s = .next (s₁.jumpTo s.pc a) ∧ s₁.sp = s.sp + 8 ∧ s₁.regs = s.regs ∧ s₁.ueActive = false ∧
          (s.bus = [] → s₁.mem = s.mem ∧ a = BitVec.ofNat 32 (s.mem.readN s.sp.toNat 4) ∧
            s₁.ps = PsReg.ofWord s.cfg (BitVec.ofNat 32 (s.mem.readN (s.sp + 4).toNat 4)))) ∧
    ∀ s : State, s.bus = [] → s.sp.toNat + 8 ≤ s.cfg.memSize → s.sp.toNat + 8 ≤ 2 ^ 32 →
      ∃ a t, returnFromInterrupt s = .ok a t

/-- What is taken at the end of an instruction before anything asynchronous. Stack Overflow with `pc0` pushed, where it
left SP below 2048, its push or pop performed (R493): CALL, RET, RETP, RETI, LDPR of register 0, and, through stack
mode, the moves, NOT, AND, OR, XOR, ADD (before a delivered overflow, R498), CMP and BIT. Trace with the address of the
next instruction, where T is set at the end (R505): the instructions without references, the moves, JMP and the
conditional branches, CALL, RET, and a RETI that sets T (log 36, DEDUCED). That Stack Overflow comes before trace is R498
item 2; that trace comes before an uncorrectable error and every asynchronous condition, items 3 to 5, is the spec's own
choice (D14), on which R498 would have no proof depend. -/
def Obligations.EndOfInstruction : Prop :=
  ((∀ (src : Ref) (s s₁ s₂ : State) (t : Word), s.ps.rep = 0 → evalTarget s.sp (s.pc + 2) src s = .ok t s₁ →
     push4 (pcNext (.call src) s) s₁ = .ok () s₂ → s₂.bus = [] → s₂.sp.toNat < 2048 →
       exec (.call src) s = takes 12 s.pc (s₂.jumpTo s.pc t)) ∧
    (∀ (s s₁ : State) (t : Word), s.ps.rep = 0 → s₁.bus = [] → s₁.sp.toNat < 2048 →
      (pop4 s = .ok t s₁ → exec .ret s = takes 12 s.pc (s₁.jumpTo s.pc t)) ∧
        (returnFromInterrupt s = .ok t s₁ → exec .reti s = takes 12 s.pc (s₁.jumpTo s.pc t))) ∧
    (∀ (src : Ref) (s s₁ s₂ s₃ : State) (l : Loc) (k t : Word), s.ps.rep = 0 →
      evalRef .src 4 s.sp (s.pc + 2) src s = .ok l s₁ → readLoc .w l s₁ = .ok k s₂ → pop4 s₂ = .ok t s₃ →
        s₃.bus = [] → (s₃.sp + k).toNat < 2048 →
          exec (.retp src) s = takes 12 s.pc ({ s₃ with sp := s₃.sp + k }.jumpTo s.pc t)) ∧
    (∀ (src des : Ref) (s s₁ s₂ s₃ : State) (l₁ l₂ : Loc) (v : Word), s.ps.rep = 0 →
      evalBoth .w .b .look src des s = .ok (l₁, l₂) s₁ → readLoc .w l₁ s₁ = .ok v s₂ → readLoc .b l₂ s₂ = .ok 0 s₃ →
        s₃.bus = [] → v.toNat < 2048 →
          exec (.ldpr src des) s = takes 12 s.pc ({ s₃ with sp := v }.onward s.pc (pcNext (.ldpr src des) s))) ∧
    (∀ p ∈ [(OpType.b, Instr.movb), (.h, .movh), (.w, .movw), (.r, .movr), (.l, .movl)],
      WriteOverflows p.1 p.1 p.2 (fun _ a => a) (fun s _ => s.ps)) ∧
    (∀ p ∈ [(OpType.b, Instr.notb), (.h, .noth), (.w, .notw)],
      WriteOverflows p.1 p.1 p.2 (fun _ a => ~~~a)
        (fun s a => { s.ps with fN := (~~~a).msb, fZ := ~~~a == 0, fV := false, fU := false })) ∧
    (∀ p ∈ [(OpType.b, Instr.andb), (.h, .andh), (.w, .andw)],
      ModifyOverflows p.1 p.1 p.2 (fun _ a b => a &&& b)
        (fun s a b => { s.ps with fN := (a &&& b).msb, fZ := (a &&& b) == 0, fV := false, fU := false })) ∧
    (∀ p ∈ [(OpType.b, Instr.orb), (.h, .orh), (.w, .orw)],
      ModifyOverflows p.1 p.1 p.2 (fun _ a b => a ||| b)
        (fun s a b => { s.ps with fN := (a ||| b).msb, fZ := (a ||| b) == 0, fV := false, fU := false })) ∧
    (∀ p ∈ [(OpType.b, Instr.xorb), (.h, .xorh), (.w, .xorw)],
      ModifyOverflows p.1 p.1 p.2 (fun _ a b => a ^^^ b)
        (fun s a b => { s.ps with fN := (a ^^^ b).msb, fZ := (a ^^^ b) == 0, fV := false, fU := false })) ∧
    (∀ p ∈ [(OpType.b, Instr.addb), (.h, .addh), (.w, .addw)],
      ModifyOverflows p.1 p.1 p.2 (fun _ a b => a + b)
        (fun s a b =>
          s.ps.withArith (decide (2 ^ p.1.bits ≤ a.toNat + b.toNat)) (outOfRange p.1.bits (a.toInt + b.toInt))
            (decide (a.toInt + b.toInt < 0)) (a + b == 0))) ∧
    (∀ p ∈ [(OpType.b, Instr.bitb), (.h, .bith), (.w, .bitw)],
      CompareOverflows p.1 p.2 (fun s a b =>
        { s.ps with fN := (a &&& b).msb, fZ := (a &&& b) == 0, fV := false, fU := false })) ∧
    ∀ p ∈ [(OpType.b, Instr.cmpb), (.h, .cmph), (.w, .cmpw)],
      CompareOverflows p.1 p.2 (fun s a b =>
        s.ps.withArith (decide (a.toNat < b.toNat)) false (decide (a.toInt < b.toInt)) (a == b))) ∧
    (∀ p ∈ [(Instr.nop, fun s : State => s), (.clc, fun s => s.withPs { s.ps with fC := false }),
        (.stc, fun s => s.withPs { s.ps with fC := true }), (.cmc, fun s => s.withPs { s.ps with fC := !s.ps.fC }),
        (.ei, fun s => s.withPs { s.ps with eIE := true }), (.di, fun s => s.withPs { s.ps with eIE := false }),
        (.eron, fun s => { s with errorFlag := true }), (.erof, fun s => { s with errorFlag := false }),
        (.wait, fun s => { s with idle := true }), (.rset, State.rset)],
      ∀ s : State, s.ps.rep = 0 → s.bus = [] → s.ps.eT = true →
        exec p.1 s = takes 1 (s.pc + 1) ((p.2 s).onward s.pc (s.pc + 1))) ∧
    (∀ p ∈ [(OpType.b, Instr.movb), (.h, .movh), (.w, .movw), (.r, .movr), (.l, .movl)],
      ∀ (src des : Ref) (s s₁ s₂ s₄ : State) (l₁ l₂ : Loc) (a : BitVec p.1.bits), s.ps.rep = 0 →
        evalBoth p.1 p.1 .write src des s = .ok (l₁, l₂) s₁ → readLoc p.1 l₁ s₁ = .ok a s₂ →
          writeLoc p.1 l₂ a s₂ = .ok () s₄ → s₄.bus = [] → s.ps.eT = true →
            (src = .stk ∨ des = .stk → 2048 ≤ s₄.sp.toNat) →
              exec (p.2 src des) s =
                takes 1 (pcNext (p.2 src des) s) (s₄.onward s.pc (pcNext (p.2 src des) s))) ∧
    (∀ p ∈ branchTable, ∀ (src : Ref) (s s₁ : State) (t : Word), s.ps.rep = 0 → evalTarget s.sp (s.pc + 2) src s = .ok t s₁ →
        (p.2.1 && s.ps.fU) = false → s₁.bus = [] → s.ps.eT = true →
          exec (p.1 src) s =
            if p.2.2 s.ps then takes 1 t (s₁.jumpTo s.pc t)
            else takes 1 (pcNext (p.1 src) s) (s₁.onward s.pc (pcNext (p.1 src) s))) ∧
    (∀ (src : Ref) (s s₁ s₂ : State) (t : Word), s.ps.rep = 0 → evalTarget s.sp (s.pc + 2) src s = .ok t s₁ →
      push4 (pcNext (.call src) s) s₁ = .ok () s₂ → s₂.bus = [] → s.ps.eT = true → 2048 ≤ s₂.sp.toNat →
        exec (.call src) s = takes 1 t (s₂.jumpTo s.pc t)) ∧
    (∀ (s s₁ : State) (t : Word), s.ps.rep = 0 → pop4 s = .ok t s₁ → s₁.bus = [] → s.ps.eT = true →
      2048 ≤ s₁.sp.toNat → exec .ret s = takes 1 t (s₁.jumpTo s.pc t)) ∧
    ∀ (s s₁ : State) (a : Word), s.ps.rep = 0 → returnFromInterrupt s = .ok a s₁ → s₁.bus = [] → s₁.ps.eT = true →
      2048 ≤ s₁.sp.toNat → exec .reti s = takes 1 a (s₁.jumpTo s.pc a)

/-- An Idle processor stays Idle while nothing is present and enabled, and takes the lowest-numbered condition that is,
with the address after WAIT pushed (R421, R497, R498). An uncorrectable error comes before all of them. That order, items
4 and 5 of R498, is the spec's own choice (D14), on which R498 would have no proof depend. Of the uncorrectable error the
spec leaves the pushed address unspecified (R502), which the model pushes as a free value, with the registers, flags and
operand bytes free too (logs 22 and 7, DESIGN CHOICE). The Time Out condition is the level TR = 0 under TO and IE, and
the conditions of a channel are its count at zero under its enable bit and IO or II and IE; an input channel with a
noted error gives Input Error and not Input Ready (R463, R494). The numbers are 13 and 14, 32 to 41 and 63 for Output
Ready, 64 to 73 and 95 for Input Ready, and 96 to 105 and 127 for Input Error (R496). -/
def Obligations.Selection : Prop :=
  ((∀ s : State, s.idle = true → s.events = [] → s.ueLatch = none → asyncNumber s = none → step s = .next s) ∧
     (∀ (s : State) (n : Nat), s.idle = true → s.events = [] → s.ueLatch = none → asyncNumber s = some n → n ≠ 14 →
       step s = takes n s.pc s) ∧
     (∀ s : State, s.idle = true → s.events = [] → s.ueLatch = none → asyncNumber s = some 14 →
       step s = takes 14 s.pc { s with ceLatch := false }) ∧
     (∀ (s : State) (a k : Nat), s.idle = true → s.events = [] → s.ueLatch = some (a, k) →
       step s = takes 15 (Config.freeValue 32 (s.free + 17)) (s.scramble a k)) ∧
     ∀ (s : State) (n : Nat), asyncNumber s = some n →
       s.ps.eIE = true ∧ (n, true) ∈ asyncConditions s ∧ ∀ c ∈ asyncConditions s, c.2 = true → n ≤ c.1) ∧
    (∀ s : State,
      (asyncConditions s).map Prod.fst =
          [13, 14, 32, 33, 34, 35, 36, 37, 38, 39, 40, 41, 63, 64, 65, 66, 67, 68, 69, 70, 71, 72, 73, 95, 96, 97, 98, 99,
            100, 101, 102, 103, 104, 105, 127] ∧
        ((13, true) ∈ asyncConditions s ↔ s.tr = 0 ∧ s.ps.eTO = true ∧ s.ps.eIE = true) ∧
        ((14, true) ∈ asyncConditions s ↔ s.ceLatch = true ∧ s.ps.eCE = true ∧ s.ps.eIE = true) ∧
        (∀ (k : Nat) (h : k < 10),
          ((32 + k, true) ∈ asyncConditions s ↔ outputReady s ⟨k, by omega⟩ = true) ∧
            ((64 + k, true) ∈ asyncConditions s ↔ inputReady s ⟨k, by omega⟩ = true) ∧
            ((96 + k, true) ∈ asyncConditions s ↔ inputError s ⟨k, by omega⟩ = true)) ∧
        ((63, true) ∈ asyncConditions s ↔ outputReady s 10 = true) ∧
        ((95, true) ∈ asyncConditions s ↔ inputReady s 10 = true) ∧
        ((127, true) ∈ asyncConditions s ↔ inputError s 10 = true)) ∧
      ∀ (s : State) (i : Fin 11),
        (outputReady s i = true ↔ (s.outPort i).count = 0 ∧ portFlag s.cfg s.oe i = true ∧ s.ps.eIO = true ∧
          s.ps.eIE = true) ∧
        (inputReady s i = true ↔ (s.inPort i).count = 0 ∧ (s.inPort i).perr = false ∧ (s.inPort i).ovr = false ∧
          portFlag s.cfg s.ie i = true ∧ s.ps.eII = true ∧ s.ps.eIE = true) ∧
        (inputError s i = true ↔ (s.inPort i).count = 0 ∧ ((s.inPort i).perr = true ∨ (s.inPort i).ovr = true) ∧
          portFlag s.cfg s.ie i = true ∧ s.ps.eII = true ∧ s.ps.eIE = true)

/-! ## Communication -/

/-- LPTR and LCNT (R443, R444): the address or count register of the named port is loaded with bit 0 cleared; LCNT
clears an input port's error flags and takes an output port out of its broadcast group. Nothing else changes but what
evaluating the references does. The ports by number (R440): 0 to 9 and 31 are the inputs, 32 to 41 and 63 the outputs, the
eleventh channel being the host's, and no other number is a port. -/
def Obligations.ChannelLoads : Prop :=
  (∀ p : Nat,
    (∀ i : Fin 11, inIndex p = some i ↔ p = if i = 10 then 31 else i.val) ∧
      (∀ i : Fin 11, outIndex p = some i ↔ p = if i = 10 then 63 else 32 + i.val) ∧
      (inIndex p = none ∧ outIndex p = none ↔ (10 ≤ p ∧ p ≤ 30) ∨ (42 ≤ p ∧ p ≤ 62) ∨ 64 ≤ p)) ∧
  (∀ (src des : Ref) (s s₁ s₂ s₃ u : State) (l₁ l₂ : Loc) (a p : Word), Runs (.lptr src des) s →
    evalBoth .w .w .look src des s = .ok (l₁, l₂) s₁ → readLoc .w l₁ s₁ = .ok a s₂ → readLoc .w l₂ s₂ = .ok p s₃ →
      ((∃ i, inIndex p.toNat = some i ∧ u = s₃.setIn i { s₃.inPort i with address := a &&& 0xFFFFFFFE }) ∨
        (∃ i, outIndex p.toNat = some i ∧ (s₃.outPort i).inBroadcast = false ∧
          u = s₃.setOut i { s₃.outPort i with address := a &&& 0xFFFFFFFE })) →
        u.Settled → (src = .stk → 2048 ≤ u.sp.toNat) →
          exec (.lptr src des) s = .next (u.goesOn (.lptr src des) s) ∧
            (s.bus = [] → FramedLook src des s s₃)) ∧
    ∀ (src des : Ref) (s s₁ s₂ s₃ u : State) (l₁ l₂ : Loc) (n : Word) (p : Byte), Runs (.lcnt src des) s →
      evalBoth .w .b .look src des s = .ok (l₁, l₂) s₁ → readLoc .w l₁ s₁ = .ok n s₂ → readLoc .b l₂ s₂ = .ok p s₃ →
        ((∃ i, inIndex p.toNat = some i ∧
            u = s₃.setIn i { s₃.inPort i with count := n &&& 0xFFFFFFFE, perr := false, ovr := false }) ∨
          (∃ i, outIndex p.toNat = some i ∧ (s₃.outPort i).inBroadcast = false ∧
            u = s₃.setOut i { s₃.outPort i with count := n &&& 0xFFFFFFFE, bcast := false })) →
          u.Settled → (src = .stk → 2048 ≤ u.sp.toNat) →
            exec (.lcnt src des) s = .next (u.goesOn (.lcnt src des) s) ∧
              (s.bus = [] → FramedLook src des s s₃)

/-- BPTR and BCNT (R445, R446): the address or count registers of the output ports in the mask are loaded with bit 0
cleared; BCNT makes them the broadcast group where the count is not zero. The ports of the mask are ready, and for BCNT
no broadcast is in progress and their addresses agree. Under the default layout of the port registers (log 5) mask bits 0
to 9 stand for ports 32 to 41, bit 31 for port 63, and bits 10 to 30 for no port (R440, R445, R442). -/
def Obligations.BroadcastLoads : Prop :=
  (∀ (cfg : Params) (m : Word), cfg.portBit = #v[0, 1, 2, 3, 4, 5, 6, 7, 8, 9, 31] →
    (∀ i : Fin 11, inMask cfg m i = m.getLsbD (if i = 10 then 31 else i.val)) ∧
      (badMask cfg m = true ↔ ∃ b, 10 ≤ b ∧ b ≤ 30 ∧ m.getLsbD b = true)) ∧
  (∀ (src des : Ref) (s s₁ s₂ s₃ u : State) (l₁ l₂ : Loc) (a m : Word), Runs (.bptr src des) s →
    evalBoth .w .w .look src des s = .ok (l₁, l₂) s₁ → readLoc .w l₁ s₁ = .ok a s₂ → readLoc .w l₂ s₂ = .ok m s₃ →
      badMask s.cfg m = false → maskReady s₃ m = true →
        u = s₃.mapOut (fun i p => if inMask s.cfg m i then { p with address := a &&& 0xFFFFFFFE } else p) →
          u.Settled → (src = .stk → 2048 ≤ u.sp.toNat) →
            exec (.bptr src des) s = .next (u.goesOn (.bptr src des) s) ∧
              (s.bus = [] → FramedLook src des s s₃)) ∧
    ∀ (src des : Ref) (s s₁ s₂ s₃ u : State) (l₁ l₂ : Loc) (n m : Word), Runs (.bcnt src des) s →
      evalBoth .w .w .look src des s = .ok (l₁, l₂) s₁ → readLoc .w l₁ s₁ = .ok n s₂ → readLoc .w l₂ s₂ = .ok m s₃ →
        badMask s.cfg m = false → broadcasting s₃ = false → maskReady s₃ m = true → maskAligned s₃ m = true →
          u = s₃.mapOut (fun i p =>
              { p with
                  count := if inMask s.cfg m i then n &&& 0xFFFFFFFE else p.count
                  bcast := inMask s.cfg m i && (n &&& 0xFFFFFFFE) != 0 }) →
            u.Settled → (src = .stk → 2048 ≤ u.sp.toNat) →
              exec (.bcnt src des) s = .next (u.goesOn (.bcnt src des) s) ∧
                (s.bus = [] → FramedLook src des s s₃)

/-- The cases the spec has a model refuse, each refused by name: a Processor register number above 12 (U1); a port
number or mask that names no port (U2); BPTR or BCNT on a port that is not ready, BCNT while a broadcast runs or over
ports with differing addresses, LPTR or LCNT on a member of a broadcast in progress (U4); the count register named
under a repeat, where the instruction runs (U3; that a skipped one is not refused is the model's choice, log 15); an
interrupt entry that does not fit memory (U13); and a suspect instruction byte where it is fetched (R100): one of the
opcode or REFERENCE 1 before anything else, one of REFERENCE 2 once REFERENCE 1 is evaluated, an agent's write
meanwhile included, as MOV, ADD and CMP of Words and MOVA show, and, of one that the end of memory cuts off, one of
the bytes that are there. And an access that reaches past the memory there is (R80, D25), which stops with the fault
unpopulated at its first absent byte (log 20, DESIGN CHOICE): of an operand, a pointer, the stack, an instruction
byte, a channel (R451, R452, R467) or the host, an agent's within an instruction included; the instruction ends with
it, as MOVW, ADDW, CMPW, CALL, RET and RETI show. -/
def Obligations.Refused : Prop :=
  (∀ (src des : Ref) (s s₁ s₂ s₃ : State) (l₁ l₂ : Loc) (v : Word) (n : Byte), s.ps.rep = 0 → 12 < n.toNat →
    evalBoth .w .b .look src des s = .ok (l₁, l₂) s₁ → readLoc .w l₁ s₁ = .ok v s₂ → readLoc .b l₂ s₂ = .ok n s₃ →
      exec (.ldpr src des) s = .refused (.processorRegister n.toNat)) ∧
    (∀ (src des : Ref) (s s₁ s₂ : State) (l₁ l₂ : Loc) (n : Byte), s.ps.rep = 0 → 12 < n.toNat →
      evalBoth .b .w .write src des s = .ok (l₁, l₂) s₁ → readLoc .b l₁ s₁ = .ok n s₂ →
        exec (.stpr src des) s = .refused (.processorRegister n.toNat)) ∧
    (∀ (src des : Ref) (s s₁ s₂ s₃ : State) (l₁ l₂ : Loc) (a p : Word), s.ps.rep = 0 →
      evalBoth .w .w .look src des s = .ok (l₁, l₂) s₁ → readLoc .w l₁ s₁ = .ok a s₂ → readLoc .w l₂ s₂ = .ok p s₃ →
        (inIndex p.toNat = none → outIndex p.toNat = none →
          exec (.lptr src des) s = .refused (.portNumber p.toNat)) ∧
        (∀ i, outIndex p.toNat = some i → (s₃.outPort i).inBroadcast = true →
          exec (.lptr src des) s = .refused .broadcastMisuse) ∧
        (badMask s.cfg p = true → exec (.bptr src des) s = .refused (.broadcastMask p) ∧
          exec (.bcnt src des) s = .refused (.broadcastMask p)) ∧
        (badMask s.cfg p = false → maskReady s₃ p = false → exec (.bptr src des) s = .refused .broadcastMisuse) ∧
        (badMask s.cfg p = false → broadcasting s₃ = true ∨ maskReady s₃ p = false ∨ maskAligned s₃ p = false →
          exec (.bcnt src des) s = .refused .broadcastMisuse)) ∧
    (∀ (src des : Ref) (s s₁ s₂ s₃ : State) (l₁ l₂ : Loc) (n : Word) (p : Byte), s.ps.rep = 0 →
      evalBoth .w .b .look src des s = .ok (l₁, l₂) s₁ → readLoc .w l₁ s₁ = .ok n s₂ → readLoc .b l₂ s₂ = .ok p s₃ →
        (inIndex p.toNat = none → outIndex p.toNat = none →
          exec (.lcnt src des) s = .refused (.portNumber p.toNat)) ∧
        ∀ i, outIndex p.toNat = some i → (s₃.outPort i).inBroadcast = true →
          exec (.lcnt src des) s = .refused .broadcastMisuse) ∧
    (∀ (i : Instr) (s : State), s.ps.rep ≠ 0 → repeatEnds s = false → namesRegister s.ps.repIndex i = true →
      (isBranch i = true → s.cfg.repBranch = .testThenDecrement) → exec i s = .refused .repeatCountUsed) ∧
    (∀ (n : Nat) (a : Word) (s : State),
      s.sp.toNat < 8 ∨ s.cfg.memSize < s.sp.toNat ∨ s.cfg.memSize < 8 * n + 8 →
        takes n a s = .refused (.doubleFault n)) ∧
    (∀ (s : State) (i : Instr) (rest : List Byte) (a : Nat), s.idle = false → s.pastEnd = false → s.events = [] →
      decode s.cfg (fetchBytes s) = .ok (i, rest) → staleByte s (fetchedFirst i s) = some a →
        step s = .refused (.staleFetch a)) ∧
    (∀ (src des : Ref) (s s₁ : State) (l : Loc) (x a : Nat) (v : Word), s.ps.rep = 0 → s₁.fetchFresh a = false →
      (∀ b, x ≤ b → b < a → s₁.fetchFresh b = true) → x ≤ a →
        (evalRef .src 4 s.sp (s.pc + 2) src s = .ok l s₁ → x = s.pc.toNat + 1 + src.length (.value .w) →
          a < x + des.length (.value .w) →
            ∀ mk ∈ [Instr.movw, .addw, .cmpw], exec (mk src des) s = .refused (.staleFetch a)) ∧
          (evalTarget s.sp (s.pc + 2) src s = .ok v s₁ → x = s.pc.toNat + 1 + src.length .addr →
            a < x + des.length (.value .w) → exec (.mova src des) s = .refused (.staleFetch a))) ∧
    (∀ s : State, s.cfg.memSize < 2 ^ 32 →
      (∀ (a : Word) (n : Nat), s.cfg.memSize < a.toNat + n →
        loadN a n s = .fault (.unpopulated (max a.toNat s.cfg.memSize)) ∧
          ∀ v, storeN a n v s = .fault (.unpopulated (max a.toNat s.cfg.memSize))) ∧
      (∀ t : OpType,
        (∀ a : Word, s.cfg.memSize < a.toNat + t.len →
          readLoc t (.mem a) s = .fault (.unpopulated (max a.toNat s.cfg.memSize)) ∧
            ∀ v, writeLoc t (.mem a) v s = .fault (.unpopulated (max a.toNat s.cfg.memSize))) ∧
          (s.cfg.memSize < s.sp.toNat + t.len → ∀ sp0 w,
            evalRef .src t.len sp0 w .stk s = .fault (.unpopulated (max s.sp.toNat s.cfg.memSize))) ∧
          (s.cfg.memSize < (s.sp - BitVec.ofNat 32 t.len).toNat + t.len → ∀ v,
            writeLoc t .push v s =
              .fault (.unpopulated (max (s.sp - BitVec.ofNat 32 t.len).toNat s.cfg.memSize)))) ∧
      (s.cfg.memSize < s.sp.toNat + 4 → pop4 s = .fault (.unpopulated (max s.sp.toNat s.cfg.memSize))) ∧
      (s.cfg.memSize < (s.sp - 4).toNat + 4 → ∀ v,
        push4 v s = .fault (.unpopulated (max (s.sp - 4).toNat s.cfg.memSize))) ∧
      (∀ (role : Role) (len : Nat) (sp0 w : Word) (n : Fin 16),
        (s.cfg.memSize < (s.reg n).toNat + 4 →
          evalRef role len sp0 w (.autoIncInd n) s = .fault (.unpopulated (max (s.reg n).toNat s.cfg.memSize))) ∧
          (∀ a : Word, s.cfg.memSize < a.toNat + 4 →
            evalRef role len sp0 w (.dirInd a) s = .fault (.unpopulated (max a.toNat s.cfg.memSize))) ∧
          (∀ (base : Word) (r : BitVec 32 → Ref),
            (base, r) ∈ [(s.reg n, Ref.offInd n), (s.pc, Ref.pcInd), (sp0, Ref.spInd)] → ∀ off : BitVec 32,
              0 ≤ (base.toNat : Int) + off.toInt → (base.toNat : Int) + off.toInt < 2 ^ 32 →
                s.cfg.memSize < (base + off).toNat + 4 →
                  evalRef role len sp0 w (r off) s =
                    .fault (.unpopulated (max (base + off).toNat s.cfg.memSize))) ∧
          ∀ k, evalRef role len sp0 w (.missing k) s = .fault (.unpopulated (max s.pc.toNat s.cfg.memSize))) ∧
      (s.cfg.memSize ≤ s.pc.toNat → s.idle = false → s.pastEnd = false → s.events = [] →
        step s = .fault (.unpopulated s.pc.toNat))) ∧
    (∀ (src des : Ref) (s : State) (f : Fault), s.ps.rep = 0 →
      (evalBoth .w .w .write src des s = .fault f → exec (.movw src des) s = .fault f) ∧
        (evalBoth .w .w .modify src des s = .fault f → exec (.addw src des) s = .fault f) ∧
        (evalBoth .w .w .look src des s = .fault f → exec (.cmpw src des) s = .fault f) ∧
        (evalTarget s.sp (s.pc + 2) src s = .fault f → exec (.call src) s = .fault f) ∧
        (∀ s₀ t, evalTarget s.sp (s.pc + 2) src s = .ok t s₀ → push4 (pcNext (.call src) s) s₀ = .fault f →
          exec (.call src) s = .fault f) ∧
        (pop4 s = .fault f → exec .ret s = .fault f ∧ exec .reti s = .fault f)) ∧
    (∀ (src des : Ref) (s s₁ : State) (l₁ l₂ : Loc) (f : Fault), s.ps.rep = 0 →
      (evalBoth .w .w .write src des s = .ok (l₁, l₂) s₁ →
        (readLoc .w l₁ s₁ = .fault f → exec (.movw src des) s = .fault f) ∧
          ∀ v s₀, readLoc .w l₁ s₁ = .ok v s₀ → writeLoc .w l₂ v s₀ = .fault f → exec (.movw src des) s = .fault f) ∧
        (evalBoth .w .w .modify src des s = .ok (l₁, l₂) s₁ →
          (readLoc .w l₁ s₁ = .fault f → exec (.addw src des) s = .fault f) ∧
            ∀ v s₀, readLoc .w l₁ s₁ = .ok v s₀ → readLoc .w l₂ s₀ = .fault f → exec (.addw src des) s = .fault f) ∧
        (evalBoth .w .w .look src des s = .ok (l₁, l₂) s₁ →
          (readLoc .w l₁ s₁ = .fault f → exec (.cmpw src des) s = .fault f) ∧
            ∀ v s₀, readLoc .w l₁ s₁ = .ok v s₀ → readLoc .w l₂ s₀ = .fault f → exec (.cmpw src des) s = .fault f)) ∧
    (∀ (s : State) (rest : List Event),
      (∀ i, s.events = .send i :: rest → (s.outPort i).count ≠ 0 → (s.outPort i).bcast = false → linkRoom s i = true →
        s.cfg.memSize < (s.outPort i).address.toNat + 2 →
          step s = .fault (.unpopulated (max (s.outPort i).address.toNat s.cfg.memSize))) ∧
        (∀ i, s.events = .store i :: rest → (s.inPort i).full = true → (s.inPort i).count ≠ 0 →
          s.cfg.memSize < (s.inPort i).address.toNat + 2 →
            step s = .fault (.unpopulated (max (s.inPort i).address.toNat s.cfg.memSize))) ∧
        (∀ i js, s.events = .broadcast :: rest → broadcastGroup s = i :: js → (s.outPort i).count ≠ 0 →
          (∀ j ∈ i :: js, linkRoom s j = true) → s.cfg.memSize < (s.outPort i).address.toNat + 2 →
            step s = .fault (.unpopulated (max (s.outPort i).address.toNat s.cfg.memSize))) ∧
        ∀ k h, s.events = .hostWrite k h :: rest ∨ s.events = .hostRead k :: rest → s.cfg.ioBoard = true →
          s.cfg.memSize < 2 * k + 2 → step s = .fault (.unpopulated (max (2 * k) s.cfg.memSize))) ∧
    ∀ (s : State) (e : Event) (es : List Event) (a : Word) (n v : Nat) (f : Fault),
      (agentStep e s = .fault f → runAgents (e :: es) s = .fault f) ∧
        (checkAccess s.cfg.memSize a.toNat n = .present → n ≠ 0 →
          (letAgents s = .fault f → loadN a n s = .fault f) ∧
            (letAgents (s.noteWrite a.toNat n) = .fault f → storeN a n v s = .fault f))

/-- An output channel's step (R451): the halfword at its address goes to the end of its link, the address goes up and the
count down by two; no other channel and no byte of memory changes. The broadcast step (R467, R468): one halfword, read
from the lowest member's address, goes on the link of every member; each member's address and count move by two and its
flag is cleared where its count becomes zero; the other channels do not change. -/
def Obligations.OutputSteps : Prop :=
  (∀ (i : Fin 11) (s : State), (s.outPort i).count ≠ 0 → (s.outPort i).bcast = false → s.cfg.wiring.get i = .linked →
     (s.outPort i).link.length < s.cfg.linkDepth → (s.outPort i).address.toNat + 2 ≤ s.cfg.memSize →
       ∃ t, agentStep (.send i) s = .next t ∧
         t.outPort i =
           { s.outPort i with
               address := (s.outPort i).address + 2
               count := (s.outPort i).count - 2
               link := (s.outPort i).link ++ [BitVec.ofNat 16 (s.mem.readN (s.outPort i).address.toNat 2)] } ∧
         (∀ j, j ≠ i → t.outPort j = s.outPort j) ∧ t.inp = s.inp ∧ t.mem = s.mem) ∧
    ∀ (s : State) (i : Fin 11) (rest : List (Fin 11)), broadcastGroup s = i :: rest → (s.outPort i).count ≠ 0 →
      (∀ j ∈ i :: rest, linkRoom s j = true) → (s.outPort i).address.toNat + 2 ≤ s.cfg.memSize →
        ∃ t, agentStep .broadcast s = .next t ∧ t.mem = s.mem ∧ t.inp = s.inp ∧
          ∀ j, ((s.outPort j).bcast = false → t.outPort j = s.outPort j) ∧
            ((s.outPort j).bcast = true →
              (t.outPort j).address = (s.outPort j).address + 2 ∧ (t.outPort j).count = (s.outPort j).count - 2 ∧
                ((t.outPort j).bcast = true ↔ (t.outPort j).count ≠ 0) ∧
                (s.cfg.wiring.get j = .linked →
                  (t.outPort j).link =
                    (s.outPort j).link ++ [BitVec.ofNat 16 (s.mem.readN (s.outPort i).address.toNat 2)]))

/-- An input channel's two steps (R452): an arrival fills the latch of a port that is wired, noting overrun and bad
parity, and reaches no port that is not (R457); the store writes the latch at the address, little-endian, and moves the
address and the count by two; no other channel changes. Delivery takes the oldest halfword off an output port's link, and
changes nothing else (R457). -/
def Obligations.InputSteps : Prop :=
  (∀ (i : Fin 11) (h : Half) (bad : Bool) (s : State), s.cfg.inWired.get i = true →
    ∃ t, agentStep (.arrive i h bad) s = .next t ∧
      t.inPort i =
        { s.inPort i with
            latch := h
            full := true
            ovr := (s.inPort i).ovr || (s.inPort i).full
            perr := (s.inPort i).perr || bad } ∧
      (∀ j, j ≠ i → t.inPort j = s.inPort j) ∧ t.out = s.out ∧ t.mem = s.mem) ∧
    (∀ (i : Fin 11) (h : Half) (bad : Bool) (s : State), s.cfg.inWired.get i = false →
      agentStep (.arrive i h bad) s = .next s) ∧
    (∀ (i : Fin 11) (s : State), ∃ t, agentStep (.deliver i) s = .next t ∧ t = { s with out := t.out } ∧
      t.outPort i = { s.outPort i with link := (s.outPort i).link.drop 1 } ∧ ∀ j, j ≠ i → t.outPort j = s.outPort j) ∧
    ∀ (i : Fin 11) (s : State), s.mem.wf = true → (s.inPort i).full = true → (s.inPort i).count ≠ 0 →
      (s.inPort i).address.toNat + 2 ≤ s.cfg.memSize →
        ∃ t, agentStep (.store i) s = .next t ∧
          t.inPort i =
            { s.inPort i with
                full := false
                address := (s.inPort i).address + 2
                count := (s.inPort i).count - 2 } ∧
          (∀ j, j ≠ i → t.inPort j = s.inPort j) ∧ t.out = s.out ∧
          t.mem.readN (s.inPort i).address.toNat 2 = (s.inPort i).latch.toNat ∧
          ∀ x, x < (s.inPort i).address.toNat ∨ (s.inPort i).address.toNat + 2 ≤ x → t.mem.read x = s.mem.read x

/-- What falls between the accesses of one instruction (R86, R96, R99, D3): the agents named for it move, in order,
just before each access of the processor, and a Word at an even address is two such accesses, at an odd one three, the
lowest address first, each seeing what the agents wrote before it. So the halves of a Word read may come from before
and after a DMA store, and a Word of memory that an instruction reads and then writes may lose a DMA store that falls
between the two; where no agent is named the access is whole. `OperandStorage` says when an access is present. That
the agents' turns are named in State is the model's choice (log 10), and so is the cut of an access into these (log
39, DESIGN CHOICE). -/
def Obligations.Interleaving : Prop :=
  (∀ (s : State) (es : List Event) (rest : List (List Event)),
     (s.bus = [] → letAgents s = .next s) ∧
       (s.bus = es :: rest → letAgents s = runAgents es { s with bus := rest })) ∧
    (∀ (e : Event) (es : List Event) (s t : State), runAgents [] s = .next s ∧
      (agentStep e s = .next t → runAgents (e :: es) s = runAgents es t)) ∧
    (∀ (a : Word) (s t₁ t₂ t₃ : State), checkAccess s.cfg.memSize a.toNat 4 = .present →
      letAgents s = .next t₁ → letAgents t₁ = .next t₂ →
        (a.toNat % 2 = 0 → loadN a 4 s = .ok (t₁.mem.readN a.toNat 2 + 65536 * t₂.mem.readN (a.toNat + 2) 2) t₂) ∧
          (a.toNat % 2 = 1 → letAgents t₂ = .next t₃ →
            loadN a 4 s =
              .ok (t₁.mem.readN a.toNat 1 + 256 * t₂.mem.readN (a.toNat + 1) 2 +
                16777216 * t₃.mem.readN (a.toNat + 3) 1) t₃)) ∧
    ∀ (a : Word) (v : Nat) (s t₁ t₂ : State), checkAccess s.cfg.memSize a.toNat 4 = .present → a.toNat % 2 = 0 →
      letAgents (s.noteWrite a.toNat 4) = .next t₁ →
        letAgents { t₁ with mem := t₁.mem.writeN a.toNat 2 v } = .next t₂ →
          storeN a 4 v s = .ok () { t₂ with mem := t₂.mem.writeN (a.toNat + 2) 2 (v / 65536) }
end

