-- ==== Sys2Proof/Laws/Memory.lean ====
section
/-! SUPPORT. Memory: every write keeps the canonical form, a read gives what was written last, and other bytes stay. -/

namespace Sys2Proof.Machine

open Sys2Proof

theorem Memory.wfFrom_mono {lo lo' : Nat} (h : lo ≤ lo') : ∀ {m : Memory}, m.wfFrom lo' = true → m.wfFrom lo = true
  | [], _ => rfl
  | (k, b) :: rest, hw => by
    simp only [Memory.wfFrom, Bool.and_eq_true, decide_eq_true_eq] at hw ⊢
    exact ⟨⟨by omega, hw.1.2⟩, hw.2⟩

theorem Memory.wfFrom_cons {lo a : Nat} (v : Byte) {m : Memory} (h : lo ≤ a) (hm : m.wfFrom (a + 1) = true) :
    (Memory.cons a v m).wfFrom lo = true := by
  unfold Memory.cons
  split
  · exact Memory.wfFrom_mono (by omega) hm
  · rename_i hv
    simp only [Memory.wfFrom, Bool.and_eq_true, decide_eq_true_eq]
    exact ⟨⟨h, hv⟩, hm⟩

theorem Memory.wfFrom_write {a : Nat} (v : Byte) : ∀ {m : Memory} {lo : Nat}, lo ≤ a → m.wfFrom lo = true →
    (m.write a v).wfFrom lo = true
  | [], _, h, _ => Memory.wfFrom_cons v h rfl
  | (k, b) :: rest, lo, h, hm => by
    simp only [Memory.wfFrom, Bool.and_eq_true, decide_eq_true_eq] at hm
    unfold Memory.write
    split
    · refine Memory.wfFrom_cons v h ?_
      simp only [Memory.wfFrom, Bool.and_eq_true, decide_eq_true_eq]
      exact ⟨⟨by omega, hm.1.2⟩, hm.2⟩
    · split
      · refine Memory.wfFrom_cons v h (Memory.wfFrom_mono (by omega) hm.2)
      · simp only [Memory.wfFrom, Bool.and_eq_true, decide_eq_true_eq]
        exact ⟨hm.1, Memory.wfFrom_write v (by omega) hm.2⟩

/-- Below the first listed address memory reads as unlisted. -/
theorem Memory.read_below {a : Nat} : ∀ {m : Memory} {lo : Nat}, m.wfFrom lo = true → a < lo → m.read a = unlisted a
  | [], _, _, _ => rfl
  | (k, b) :: rest, lo, hm, h => by
    simp only [Memory.wfFrom, Bool.and_eq_true, decide_eq_true_eq] at hm
    unfold Memory.read
    rw [if_neg (by omega)]
    exact Memory.read_below hm.2 (by omega)

theorem Memory.read_cons {a b : Nat} {v : Byte} {m : Memory} (hm : m.wfFrom (a + 1) = true) :
    (Memory.cons a v m).read b = if b = a then v else m.read b := by
  unfold Memory.cons
  split
  · rename_i hv
    split
    · rename_i e; subst e; rw [Memory.read_below hm (by omega), hv]
    · rfl
  · show (if a = b then v else m.read b) = _
    by_cases e : b = a
    · simp [e]
    · rw [if_neg e, if_neg (fun h => e h.symm)]

theorem Memory.read_writeFrom {a b : Nat} {v : Byte} : ∀ {m : Memory} {lo : Nat}, m.wfFrom lo = true →
    (m.write a v).read b = if b = a then v else m.read b
  | [], _, _ => Memory.read_cons rfl
  | (k, c) :: rest, lo, hm => by
    have hm' := hm
    simp only [Memory.wfFrom, Bool.and_eq_true, decide_eq_true_eq] at hm
    unfold Memory.write
    split
    · refine Memory.read_cons ?_
      simp only [Memory.wfFrom, Bool.and_eq_true, decide_eq_true_eq]
      exact ⟨⟨by omega, hm.1.2⟩, hm.2⟩
    · split
      · rename_i h1 h2
        subst h2
        rw [Memory.read_cons hm.2]
        by_cases e : b = a
        · simp [e]
        · rw [if_neg e, if_neg e]
          show Memory.read rest b = if a = b then c else Memory.read rest b
          rw [if_neg (fun h => e h.symm)]
      · rename_i h1 h2
        show (if k = b then c else Memory.read (Memory.write rest a v) b) = if b = a then v else if k = b then c else Memory.read rest b
        rw [Memory.read_writeFrom hm.2]
        by_cases e : b = a
        · subst e; rw [if_neg (fun h => h2 h.symm), if_pos rfl, if_pos rfl]
        · rw [if_neg e, if_neg e]

/-- One byte written keeps the canonical form. -/
theorem Memory.wf_write {m : Memory} (a : Nat) (v : Byte) (h : m.wf = true) : (m.write a v).wf = true :=
  Memory.wfFrom_write v (Nat.zero_le _) h

/-- After one byte is written it reads as written and every other byte reads as before. -/
theorem Memory.read_write {m : Memory} (a b : Nat) (v : Byte) (h : m.wf = true) :
    (m.write a v).read b = if b = a then v else m.read b := Memory.read_writeFrom h

/-- `MemWrite` keeps the canonical form. -/
theorem Memory.wf_writeN : ∀ (n : Nat) {m : Memory} (a v : Nat), m.wf = true → (m.writeN a n v).wf = true
  | 0, _, _, _, h => h
  | n + 1, _, a, v, h => Memory.wf_writeN n (a + 1) (v / 256) (Memory.wf_write a _ h)

/-- Bytes outside the written ones read as before. -/
theorem Memory.read_writeN_other : ∀ (n : Nat) {m : Memory} (a v b : Nat), m.wf = true → b < a ∨ a + n ≤ b →
    (m.writeN a n v).read b = m.read b
  | 0, _, _, _, _, _, _ => rfl
  | n + 1, m, a, v, b, h, hb => by
    show (Memory.writeN (m.write a (BitVec.ofNat 8 v)) (a + 1) n (v / 256)).read b = _
    rw [Memory.read_writeN_other n (a + 1) (v / 256) b (Memory.wf_write a _ h) (by omega), Memory.read_write a b _ h,
      if_neg (by omega)]

/-- Byte `i` of what was written. -/
theorem Memory.read_writeN : ∀ (n : Nat) {m : Memory} (a v i : Nat), m.wf = true → i < n →
    (m.writeN a n v).read (a + i) = BitVec.ofNat 8 (v / 256 ^ i)
  | 0, _, _, _, _, _, h => by omega
  | n + 1, m, a, v, i, hm, h => by
    show (Memory.writeN (m.write a (BitVec.ofNat 8 v)) (a + 1) n (v / 256)).read (a + i) = _
    have hm' := Memory.wf_write a (BitVec.ofNat 8 v) hm
    cases i with
    | zero =>
      rw [Memory.read_writeN_other n (a + 1) (v / 256) (a + 0) hm' (by omega), Memory.read_write a (a + 0) _ hm]
      simp
    | succ i =>
      have e : a + (i + 1) = (a + 1) + i := by omega
      rw [e, Memory.read_writeN n (a + 1) (v / 256) i hm' (by omega), Nat.pow_succ, Nat.mul_comm,
        Nat.div_div_eq_div_mul]

/-- Reads of equal bytes are equal. -/
theorem Memory.readN_congr : ∀ (n : Nat) {m m' : Memory} (a : Nat), (∀ i, i < n → m.read (a + i) = m'.read (a + i)) →
    m.readN a n = m'.readN a n
  | 0, _, _, _, _ => rfl
  | n + 1, m, m', a, h => by
    show (m.read a).toNat + 256 * m.readN (a + 1) n = (m'.read a).toNat + 256 * m'.readN (a + 1) n
    have h0 : m.read a = m'.read a := h 0 (by omega)
    have hr : m.readN (a + 1) n = m'.readN (a + 1) n := Memory.readN_congr n (a + 1) fun i hi => by
      have := h (i + 1) (by omega)
      rwa [show a + (i + 1) = a + 1 + i by omega] at this
    rw [h0, hr]

theorem Memory.readN_lt : ∀ (n : Nat) (m : Memory) (a : Nat), m.readN a n < 256 ^ n
  | 0, _, _ => by simp [Memory.readN]
  | n + 1, m, a => by
    have h1 := Memory.readN_lt n m (a + 1)
    have h2 := (m.read a).isLt
    show (m.read a).toNat + 256 * m.readN (a + 1) n < 256 ^ (n + 1)
    rw [Nat.pow_succ]; omega

/-- What is written is read back, little-endian (R81). -/
theorem Memory.readN_writeN : ∀ (n : Nat) {m : Memory} (a v : Nat), m.wf = true →
    (m.writeN a n v).readN a n = v % 256 ^ n
  | 0, _, _, v, _ => by simp [Memory.readN, Nat.mod_one]
  | n + 1, m, a, v, h => by
    have h0 : (m.writeN a (n + 1) v).read a = BitVec.ofNat 8 v := by
      have := Memory.read_writeN (n + 1) a v 0 h (by omega)
      simpa using this
    have hr : (m.writeN a (n + 1) v).readN (a + 1) n = v / 256 % 256 ^ n :=
      Memory.readN_writeN n (a + 1) (v / 256) (Memory.wf_write a _ h)
    show ((m.writeN a (n + 1) v).read a).toNat + 256 * (m.writeN a (n + 1) v).readN (a + 1) n = _
    rw [h0, hr, Nat.pow_succ, Nat.mul_comm (256 ^ n) 256, Nat.mod_mul]
    simp

/-- A read of bytes apart from the written ones is as before. -/
theorem Memory.readN_writeN_other (n k : Nat) {m : Memory} (a v b : Nat) (h : m.wf = true)
    (hb : b + k ≤ a ∨ a + n ≤ b) : (m.writeN a n v).readN b k = m.readN b k :=
  Memory.readN_congr k b fun i hi => Memory.read_writeN_other n a v (b + i) h (by omega)

/-- A longer read is a shorter one and the bytes above it. -/
theorem Memory.readN_add : ∀ (k n : Nat) (m : Memory) (a : Nat),
    m.readN a (k + n) = m.readN a k + 256 ^ k * m.readN (a + k) n
  | 0, n, m, a => by simp [Memory.readN]
  | k + 1, n, m, a => by
    rw [show k + 1 + n = (k + n) + 1 by omega]
    simp only [Memory.readN]
    rw [Memory.readN_add k n m (a + 1), show a + 1 + k = a + (k + 1) by omega, pow_succ]
    ring

/-- A longer write is a shorter one and the bytes above it. -/
theorem Memory.writeN_add : ∀ (k n : Nat) (m : Memory) (a v : Nat),
    m.writeN a (k + n) v = (m.writeN a k v).writeN (a + k) n (v / 256 ^ k)
  | 0, n, m, a, v => by simp [Memory.writeN]
  | k + 1, n, m, a, v => by
    rw [show k + 1 + n = (k + n) + 1 by omega]
    simp only [Memory.writeN]
    rw [Memory.writeN_add k n, show a + 1 + k = a + (k + 1) by omega, Nat.div_div_eq_div_mul, pow_succ, Nat.mul_comm 256]

/-- Bytes written one after the other keep the canonical form. -/
theorem wf_writeBytes : ∀ (bs : List Byte) {m : Memory} (a : Nat), m.wf = true → (writeBytes m a bs).wf = true
  | [], _, _, h => h
  | b :: rest, _, a, h => wf_writeBytes rest (a + 1) (Memory.wf_write a b h)

/-- Free bytes keep the canonical form (R495). -/
theorem wf_scrambleBytes (lim : Nat) : ∀ (k : Nat) {m : Memory} (a d : Nat), m.wf = true →
    (scrambleBytes lim a k d m).wf = true
  | 0, _, _, _, h => h
  | k + 1, m, a, d, h => by
    unfold scrambleBytes
    refine wf_scrambleBytes lim k (a + 1) (d + 1) ?_
    split
    · exact Memory.wf_write a _ h
    · exact h

end Sys2Proof.Machine
end

