-- ==== Sys2Proof/Laws/State.lean ====
section
/-! SUPPORT. What each update of the state does to each field: one lemma per field per update, so that no proof
unfolds an update. -/

namespace Sys2Proof.Machine

open Sys2Proof

/-! ## setReg -/

@[simp] theorem State.setReg_regs (s : State) (n : Fin 16) (v : Word) : (s.setReg n v).regs = s.regs.set n.val v n.isLt := rfl
@[simp] theorem State.setReg_pc (s : State) (n : Fin 16) (v : Word) : (s.setReg n v).pc = s.pc := rfl
@[simp] theorem State.setReg_sp (s : State) (n : Fin 16) (v : Word) : (s.setReg n v).sp = s.sp := rfl
@[simp] theorem State.setReg_ps (s : State) (n : Fin 16) (v : Word) : (s.setReg n v).ps = s.ps := rfl
@[simp] theorem State.setReg_fr (s : State) (n : Fin 16) (v : Word) : (s.setReg n v).fr = s.fr := rfl
@[simp] theorem State.setReg_cr (s : State) (n : Fin 16) (v : Word) : (s.setReg n v).cr = s.cr := rfl
@[simp] theorem State.setReg_pi (s : State) (n : Fin 16) (v : Word) : (s.setReg n v).pi = s.pi := rfl
@[simp] theorem State.setReg_tr (s : State) (n : Fin 16) (v : Word) : (s.setReg n v).tr = s.tr := rfl
@[simp] theorem State.setReg_oe (s : State) (n : Fin 16) (v : Word) : (s.setReg n v).oe = s.oe := rfl
@[simp] theorem State.setReg_ie (s : State) (n : Fin 16) (v : Word) : (s.setReg n v).ie = s.ie := rfl
@[simp] theorem State.setReg_inp (s : State) (n : Fin 16) (v : Word) : (s.setReg n v).inp = s.inp := rfl
@[simp] theorem State.setReg_out (s : State) (n : Fin 16) (v : Word) : (s.setReg n v).out = s.out := rfl
@[simp] theorem State.setReg_errorFlag (s : State) (n : Fin 16) (v : Word) : (s.setReg n v).errorFlag = s.errorFlag := rfl
@[simp] theorem State.setReg_ceLatch (s : State) (n : Fin 16) (v : Word) : (s.setReg n v).ceLatch = s.ceLatch := rfl
@[simp] theorem State.setReg_ueLatch (s : State) (n : Fin 16) (v : Word) : (s.setReg n v).ueLatch = s.ueLatch := rfl
@[simp] theorem State.setReg_ueActive (s : State) (n : Fin 16) (v : Word) : (s.setReg n v).ueActive = s.ueActive := rfl
@[simp] theorem State.setReg_idle (s : State) (n : Fin 16) (v : Word) : (s.setReg n v).idle = s.idle := rfl
@[simp] theorem State.setReg_pastEnd (s : State) (n : Fin 16) (v : Word) : (s.setReg n v).pastEnd = s.pastEnd := rfl
@[simp] theorem State.setReg_mem (s : State) (n : Fin 16) (v : Word) : (s.setReg n v).mem = s.mem := rfl
@[simp] theorem State.setReg_fetch (s : State) (n : Fin 16) (v : Word) : (s.setReg n v).fetch = s.fetch := rfl
@[simp] theorem State.setReg_events (s : State) (n : Fin 16) (v : Word) : (s.setReg n v).events = s.events := rfl
@[simp] theorem State.setReg_bus (s : State) (n : Fin 16) (v : Word) : (s.setReg n v).bus = s.bus := rfl
@[simp] theorem State.setReg_hostReads (s : State) (n : Fin 16) (v : Word) : (s.setReg n v).hostReads = s.hostReads := rfl
@[simp] theorem State.setReg_free (s : State) (n : Fin 16) (v : Word) : (s.setReg n v).free = s.free := rfl
@[simp] theorem State.setReg_cfg (s : State) (n : Fin 16) (v : Word) : (s.setReg n v).cfg = s.cfg := rfl

/-! ## setIn -/

@[simp] theorem State.setIn_regs (s : State) (i : Fin 11) (p : InPort) : (s.setIn i p).regs = s.regs := rfl
@[simp] theorem State.setIn_pc (s : State) (i : Fin 11) (p : InPort) : (s.setIn i p).pc = s.pc := rfl
@[simp] theorem State.setIn_sp (s : State) (i : Fin 11) (p : InPort) : (s.setIn i p).sp = s.sp := rfl
@[simp] theorem State.setIn_ps (s : State) (i : Fin 11) (p : InPort) : (s.setIn i p).ps = s.ps := rfl
@[simp] theorem State.setIn_fr (s : State) (i : Fin 11) (p : InPort) : (s.setIn i p).fr = s.fr := rfl
@[simp] theorem State.setIn_cr (s : State) (i : Fin 11) (p : InPort) : (s.setIn i p).cr = s.cr := rfl
@[simp] theorem State.setIn_pi (s : State) (i : Fin 11) (p : InPort) : (s.setIn i p).pi = s.pi := rfl
@[simp] theorem State.setIn_tr (s : State) (i : Fin 11) (p : InPort) : (s.setIn i p).tr = s.tr := rfl
@[simp] theorem State.setIn_oe (s : State) (i : Fin 11) (p : InPort) : (s.setIn i p).oe = s.oe := rfl
@[simp] theorem State.setIn_ie (s : State) (i : Fin 11) (p : InPort) : (s.setIn i p).ie = s.ie := rfl
@[simp] theorem State.setIn_inp (s : State) (i : Fin 11) (p : InPort) : (s.setIn i p).inp = s.inp.set i.val p i.isLt := rfl
@[simp] theorem State.setIn_out (s : State) (i : Fin 11) (p : InPort) : (s.setIn i p).out = s.out := rfl
@[simp] theorem State.setIn_errorFlag (s : State) (i : Fin 11) (p : InPort) : (s.setIn i p).errorFlag = s.errorFlag := rfl
@[simp] theorem State.setIn_ceLatch (s : State) (i : Fin 11) (p : InPort) : (s.setIn i p).ceLatch = s.ceLatch := rfl
@[simp] theorem State.setIn_ueLatch (s : State) (i : Fin 11) (p : InPort) : (s.setIn i p).ueLatch = s.ueLatch := rfl
@[simp] theorem State.setIn_ueActive (s : State) (i : Fin 11) (p : InPort) : (s.setIn i p).ueActive = s.ueActive := rfl
@[simp] theorem State.setIn_idle (s : State) (i : Fin 11) (p : InPort) : (s.setIn i p).idle = s.idle := rfl
@[simp] theorem State.setIn_pastEnd (s : State) (i : Fin 11) (p : InPort) : (s.setIn i p).pastEnd = s.pastEnd := rfl
@[simp] theorem State.setIn_mem (s : State) (i : Fin 11) (p : InPort) : (s.setIn i p).mem = s.mem := rfl
@[simp] theorem State.setIn_fetch (s : State) (i : Fin 11) (p : InPort) : (s.setIn i p).fetch = s.fetch := rfl
@[simp] theorem State.setIn_events (s : State) (i : Fin 11) (p : InPort) : (s.setIn i p).events = s.events := rfl
@[simp] theorem State.setIn_bus (s : State) (i : Fin 11) (p : InPort) : (s.setIn i p).bus = s.bus := rfl
@[simp] theorem State.setIn_hostReads (s : State) (i : Fin 11) (p : InPort) : (s.setIn i p).hostReads = s.hostReads := rfl
@[simp] theorem State.setIn_free (s : State) (i : Fin 11) (p : InPort) : (s.setIn i p).free = s.free := rfl
@[simp] theorem State.setIn_cfg (s : State) (i : Fin 11) (p : InPort) : (s.setIn i p).cfg = s.cfg := rfl

/-! ## setOut -/

@[simp] theorem State.setOut_regs (s : State) (i : Fin 11) (p : OutPort) : (s.setOut i p).regs = s.regs := rfl
@[simp] theorem State.setOut_pc (s : State) (i : Fin 11) (p : OutPort) : (s.setOut i p).pc = s.pc := rfl
@[simp] theorem State.setOut_sp (s : State) (i : Fin 11) (p : OutPort) : (s.setOut i p).sp = s.sp := rfl
@[simp] theorem State.setOut_ps (s : State) (i : Fin 11) (p : OutPort) : (s.setOut i p).ps = s.ps := rfl
@[simp] theorem State.setOut_fr (s : State) (i : Fin 11) (p : OutPort) : (s.setOut i p).fr = s.fr := rfl
@[simp] theorem State.setOut_cr (s : State) (i : Fin 11) (p : OutPort) : (s.setOut i p).cr = s.cr := rfl
@[simp] theorem State.setOut_pi (s : State) (i : Fin 11) (p : OutPort) : (s.setOut i p).pi = s.pi := rfl
@[simp] theorem State.setOut_tr (s : State) (i : Fin 11) (p : OutPort) : (s.setOut i p).tr = s.tr := rfl
@[simp] theorem State.setOut_oe (s : State) (i : Fin 11) (p : OutPort) : (s.setOut i p).oe = s.oe := rfl
@[simp] theorem State.setOut_ie (s : State) (i : Fin 11) (p : OutPort) : (s.setOut i p).ie = s.ie := rfl
@[simp] theorem State.setOut_inp (s : State) (i : Fin 11) (p : OutPort) : (s.setOut i p).inp = s.inp := rfl
@[simp] theorem State.setOut_out (s : State) (i : Fin 11) (p : OutPort) : (s.setOut i p).out = s.out.set i.val p i.isLt := rfl
@[simp] theorem State.setOut_errorFlag (s : State) (i : Fin 11) (p : OutPort) : (s.setOut i p).errorFlag = s.errorFlag := rfl
@[simp] theorem State.setOut_ceLatch (s : State) (i : Fin 11) (p : OutPort) : (s.setOut i p).ceLatch = s.ceLatch := rfl
@[simp] theorem State.setOut_ueLatch (s : State) (i : Fin 11) (p : OutPort) : (s.setOut i p).ueLatch = s.ueLatch := rfl
@[simp] theorem State.setOut_ueActive (s : State) (i : Fin 11) (p : OutPort) : (s.setOut i p).ueActive = s.ueActive := rfl
@[simp] theorem State.setOut_idle (s : State) (i : Fin 11) (p : OutPort) : (s.setOut i p).idle = s.idle := rfl
@[simp] theorem State.setOut_pastEnd (s : State) (i : Fin 11) (p : OutPort) : (s.setOut i p).pastEnd = s.pastEnd := rfl
@[simp] theorem State.setOut_mem (s : State) (i : Fin 11) (p : OutPort) : (s.setOut i p).mem = s.mem := rfl
@[simp] theorem State.setOut_fetch (s : State) (i : Fin 11) (p : OutPort) : (s.setOut i p).fetch = s.fetch := rfl
@[simp] theorem State.setOut_events (s : State) (i : Fin 11) (p : OutPort) : (s.setOut i p).events = s.events := rfl
@[simp] theorem State.setOut_bus (s : State) (i : Fin 11) (p : OutPort) : (s.setOut i p).bus = s.bus := rfl
@[simp] theorem State.setOut_hostReads (s : State) (i : Fin 11) (p : OutPort) : (s.setOut i p).hostReads = s.hostReads := rfl
@[simp] theorem State.setOut_free (s : State) (i : Fin 11) (p : OutPort) : (s.setOut i p).free = s.free := rfl
@[simp] theorem State.setOut_cfg (s : State) (i : Fin 11) (p : OutPort) : (s.setOut i p).cfg = s.cfg := rfl

/-! ## drew -/

@[simp] theorem State.drew_regs (s : State) (k : Nat) : (s.drew k).regs = s.regs := rfl
@[simp] theorem State.drew_pc (s : State) (k : Nat) : (s.drew k).pc = s.pc := rfl
@[simp] theorem State.drew_sp (s : State) (k : Nat) : (s.drew k).sp = s.sp := rfl
@[simp] theorem State.drew_ps (s : State) (k : Nat) : (s.drew k).ps = s.ps := rfl
@[simp] theorem State.drew_fr (s : State) (k : Nat) : (s.drew k).fr = s.fr := rfl
@[simp] theorem State.drew_cr (s : State) (k : Nat) : (s.drew k).cr = s.cr := rfl
@[simp] theorem State.drew_pi (s : State) (k : Nat) : (s.drew k).pi = s.pi := rfl
@[simp] theorem State.drew_tr (s : State) (k : Nat) : (s.drew k).tr = s.tr := rfl
@[simp] theorem State.drew_oe (s : State) (k : Nat) : (s.drew k).oe = s.oe := rfl
@[simp] theorem State.drew_ie (s : State) (k : Nat) : (s.drew k).ie = s.ie := rfl
@[simp] theorem State.drew_inp (s : State) (k : Nat) : (s.drew k).inp = s.inp := rfl
@[simp] theorem State.drew_out (s : State) (k : Nat) : (s.drew k).out = s.out := rfl
@[simp] theorem State.drew_errorFlag (s : State) (k : Nat) : (s.drew k).errorFlag = s.errorFlag := rfl
@[simp] theorem State.drew_ceLatch (s : State) (k : Nat) : (s.drew k).ceLatch = s.ceLatch := rfl
@[simp] theorem State.drew_ueLatch (s : State) (k : Nat) : (s.drew k).ueLatch = s.ueLatch := rfl
@[simp] theorem State.drew_ueActive (s : State) (k : Nat) : (s.drew k).ueActive = s.ueActive := rfl
@[simp] theorem State.drew_idle (s : State) (k : Nat) : (s.drew k).idle = s.idle := rfl
@[simp] theorem State.drew_pastEnd (s : State) (k : Nat) : (s.drew k).pastEnd = s.pastEnd := rfl
@[simp] theorem State.drew_mem (s : State) (k : Nat) : (s.drew k).mem = s.mem := rfl
@[simp] theorem State.drew_fetch (s : State) (k : Nat) : (s.drew k).fetch = s.fetch := rfl
@[simp] theorem State.drew_events (s : State) (k : Nat) : (s.drew k).events = s.events := rfl
@[simp] theorem State.drew_bus (s : State) (k : Nat) : (s.drew k).bus = s.bus := rfl
@[simp] theorem State.drew_hostReads (s : State) (k : Nat) : (s.drew k).hostReads = s.hostReads := rfl
@[simp] theorem State.drew_free (s : State) (k : Nat) : (s.drew k).free = s.free + k := rfl
@[simp] theorem State.drew_cfg (s : State) (k : Nat) : (s.drew k).cfg = s.cfg := rfl

/-! ## noteWrite -/

@[simp] theorem State.noteWrite_regs (s : State) (a n : Nat) : (s.noteWrite a n).regs = s.regs := rfl
@[simp] theorem State.noteWrite_pc (s : State) (a n : Nat) : (s.noteWrite a n).pc = s.pc := rfl
@[simp] theorem State.noteWrite_sp (s : State) (a n : Nat) : (s.noteWrite a n).sp = s.sp := rfl
@[simp] theorem State.noteWrite_ps (s : State) (a n : Nat) : (s.noteWrite a n).ps = s.ps := rfl
@[simp] theorem State.noteWrite_fr (s : State) (a n : Nat) : (s.noteWrite a n).fr = s.fr := rfl
@[simp] theorem State.noteWrite_cr (s : State) (a n : Nat) : (s.noteWrite a n).cr = s.cr := rfl
@[simp] theorem State.noteWrite_pi (s : State) (a n : Nat) : (s.noteWrite a n).pi = s.pi := rfl
@[simp] theorem State.noteWrite_tr (s : State) (a n : Nat) : (s.noteWrite a n).tr = s.tr := rfl
@[simp] theorem State.noteWrite_oe (s : State) (a n : Nat) : (s.noteWrite a n).oe = s.oe := rfl
@[simp] theorem State.noteWrite_ie (s : State) (a n : Nat) : (s.noteWrite a n).ie = s.ie := rfl
@[simp] theorem State.noteWrite_inp (s : State) (a n : Nat) : (s.noteWrite a n).inp = s.inp := rfl
@[simp] theorem State.noteWrite_out (s : State) (a n : Nat) : (s.noteWrite a n).out = s.out := rfl
@[simp] theorem State.noteWrite_errorFlag (s : State) (a n : Nat) : (s.noteWrite a n).errorFlag = s.errorFlag := rfl
@[simp] theorem State.noteWrite_ceLatch (s : State) (a n : Nat) : (s.noteWrite a n).ceLatch = s.ceLatch := rfl
@[simp] theorem State.noteWrite_ueLatch (s : State) (a n : Nat) : (s.noteWrite a n).ueLatch = s.ueLatch := rfl
@[simp] theorem State.noteWrite_ueActive (s : State) (a n : Nat) : (s.noteWrite a n).ueActive = s.ueActive := rfl
@[simp] theorem State.noteWrite_idle (s : State) (a n : Nat) : (s.noteWrite a n).idle = s.idle := rfl
@[simp] theorem State.noteWrite_pastEnd (s : State) (a n : Nat) : (s.noteWrite a n).pastEnd = s.pastEnd := rfl
@[simp] theorem State.noteWrite_mem (s : State) (a n : Nat) : (s.noteWrite a n).mem = s.mem := rfl
@[simp] theorem State.noteWrite_events (s : State) (a n : Nat) : (s.noteWrite a n).events = s.events := rfl
@[simp] theorem State.noteWrite_bus (s : State) (a n : Nat) : (s.noteWrite a n).bus = s.bus := rfl
@[simp] theorem State.noteWrite_hostReads (s : State) (a n : Nat) : (s.noteWrite a n).hostReads = s.hostReads := rfl
@[simp] theorem State.noteWrite_free (s : State) (a n : Nat) : (s.noteWrite a n).free = s.free := rfl
@[simp] theorem State.noteWrite_cfg (s : State) (a n : Nat) : (s.noteWrite a n).cfg = s.cfg := rfl

/-! ## noteExecuted -/

@[simp] theorem State.noteExecuted_regs (s : State) (w : Word) : (s.noteExecuted w).regs = s.regs := rfl
@[simp] theorem State.noteExecuted_pc (s : State) (w : Word) : (s.noteExecuted w).pc = s.pc := rfl
@[simp] theorem State.noteExecuted_sp (s : State) (w : Word) : (s.noteExecuted w).sp = s.sp := rfl
@[simp] theorem State.noteExecuted_ps (s : State) (w : Word) : (s.noteExecuted w).ps = s.ps := rfl
@[simp] theorem State.noteExecuted_fr (s : State) (w : Word) : (s.noteExecuted w).fr = s.fr := rfl
@[simp] theorem State.noteExecuted_cr (s : State) (w : Word) : (s.noteExecuted w).cr = s.cr := rfl
@[simp] theorem State.noteExecuted_pi (s : State) (w : Word) : (s.noteExecuted w).pi = s.pi := rfl
@[simp] theorem State.noteExecuted_tr (s : State) (w : Word) : (s.noteExecuted w).tr = s.tr := rfl
@[simp] theorem State.noteExecuted_oe (s : State) (w : Word) : (s.noteExecuted w).oe = s.oe := rfl
@[simp] theorem State.noteExecuted_ie (s : State) (w : Word) : (s.noteExecuted w).ie = s.ie := rfl
@[simp] theorem State.noteExecuted_inp (s : State) (w : Word) : (s.noteExecuted w).inp = s.inp := rfl
@[simp] theorem State.noteExecuted_out (s : State) (w : Word) : (s.noteExecuted w).out = s.out := rfl
@[simp] theorem State.noteExecuted_errorFlag (s : State) (w : Word) : (s.noteExecuted w).errorFlag = s.errorFlag := rfl
@[simp] theorem State.noteExecuted_ceLatch (s : State) (w : Word) : (s.noteExecuted w).ceLatch = s.ceLatch := rfl
@[simp] theorem State.noteExecuted_ueLatch (s : State) (w : Word) : (s.noteExecuted w).ueLatch = s.ueLatch := rfl
@[simp] theorem State.noteExecuted_ueActive (s : State) (w : Word) : (s.noteExecuted w).ueActive = s.ueActive := rfl
@[simp] theorem State.noteExecuted_idle (s : State) (w : Word) : (s.noteExecuted w).idle = s.idle := rfl
@[simp] theorem State.noteExecuted_pastEnd (s : State) (w : Word) : (s.noteExecuted w).pastEnd = s.pastEnd := rfl
@[simp] theorem State.noteExecuted_mem (s : State) (w : Word) : (s.noteExecuted w).mem = s.mem := rfl
@[simp] theorem State.noteExecuted_events (s : State) (w : Word) : (s.noteExecuted w).events = s.events := rfl
@[simp] theorem State.noteExecuted_bus (s : State) (w : Word) : (s.noteExecuted w).bus = s.bus := rfl
@[simp] theorem State.noteExecuted_hostReads (s : State) (w : Word) : (s.noteExecuted w).hostReads = s.hostReads := rfl
@[simp] theorem State.noteExecuted_free (s : State) (w : Word) : (s.noteExecuted w).free = s.free := rfl
@[simp] theorem State.noteExecuted_cfg (s : State) (w : Word) : (s.noteExecuted w).cfg = s.cfg := rfl

/-! ## noteTransfer -/

@[simp] theorem State.noteTransfer_regs (s : State) (w t : Word) : (s.noteTransfer w t).regs = s.regs := rfl
@[simp] theorem State.noteTransfer_pc (s : State) (w t : Word) : (s.noteTransfer w t).pc = s.pc := rfl
@[simp] theorem State.noteTransfer_sp (s : State) (w t : Word) : (s.noteTransfer w t).sp = s.sp := rfl
@[simp] theorem State.noteTransfer_ps (s : State) (w t : Word) : (s.noteTransfer w t).ps = s.ps := rfl
@[simp] theorem State.noteTransfer_fr (s : State) (w t : Word) : (s.noteTransfer w t).fr = s.fr := rfl
@[simp] theorem State.noteTransfer_cr (s : State) (w t : Word) : (s.noteTransfer w t).cr = s.cr := rfl
@[simp] theorem State.noteTransfer_pi (s : State) (w t : Word) : (s.noteTransfer w t).pi = s.pi := rfl
@[simp] theorem State.noteTransfer_tr (s : State) (w t : Word) : (s.noteTransfer w t).tr = s.tr := rfl
@[simp] theorem State.noteTransfer_oe (s : State) (w t : Word) : (s.noteTransfer w t).oe = s.oe := rfl
@[simp] theorem State.noteTransfer_ie (s : State) (w t : Word) : (s.noteTransfer w t).ie = s.ie := rfl
@[simp] theorem State.noteTransfer_inp (s : State) (w t : Word) : (s.noteTransfer w t).inp = s.inp := rfl
@[simp] theorem State.noteTransfer_out (s : State) (w t : Word) : (s.noteTransfer w t).out = s.out := rfl
@[simp] theorem State.noteTransfer_errorFlag (s : State) (w t : Word) : (s.noteTransfer w t).errorFlag = s.errorFlag := rfl
@[simp] theorem State.noteTransfer_ceLatch (s : State) (w t : Word) : (s.noteTransfer w t).ceLatch = s.ceLatch := rfl
@[simp] theorem State.noteTransfer_ueLatch (s : State) (w t : Word) : (s.noteTransfer w t).ueLatch = s.ueLatch := rfl
@[simp] theorem State.noteTransfer_ueActive (s : State) (w t : Word) : (s.noteTransfer w t).ueActive = s.ueActive := rfl
@[simp] theorem State.noteTransfer_idle (s : State) (w t : Word) : (s.noteTransfer w t).idle = s.idle := rfl
@[simp] theorem State.noteTransfer_pastEnd (s : State) (w t : Word) : (s.noteTransfer w t).pastEnd = s.pastEnd := rfl
@[simp] theorem State.noteTransfer_mem (s : State) (w t : Word) : (s.noteTransfer w t).mem = s.mem := rfl
@[simp] theorem State.noteTransfer_events (s : State) (w t : Word) : (s.noteTransfer w t).events = s.events := rfl
@[simp] theorem State.noteTransfer_bus (s : State) (w t : Word) : (s.noteTransfer w t).bus = s.bus := rfl
@[simp] theorem State.noteTransfer_hostReads (s : State) (w t : Word) : (s.noteTransfer w t).hostReads = s.hostReads := rfl
@[simp] theorem State.noteTransfer_free (s : State) (w t : Word) : (s.noteTransfer w t).free = s.free := rfl
@[simp] theorem State.noteTransfer_cfg (s : State) (w t : Word) : (s.noteTransfer w t).cfg = s.cfg := rfl

/-! ## poke -/

@[simp] theorem State.poke_regs (s : State) (a n v : Nat) : (s.poke a n v).regs = s.regs := rfl
@[simp] theorem State.poke_pc (s : State) (a n v : Nat) : (s.poke a n v).pc = s.pc := rfl
@[simp] theorem State.poke_sp (s : State) (a n v : Nat) : (s.poke a n v).sp = s.sp := rfl
@[simp] theorem State.poke_ps (s : State) (a n v : Nat) : (s.poke a n v).ps = s.ps := rfl
@[simp] theorem State.poke_fr (s : State) (a n v : Nat) : (s.poke a n v).fr = s.fr := rfl
@[simp] theorem State.poke_cr (s : State) (a n v : Nat) : (s.poke a n v).cr = s.cr := rfl
@[simp] theorem State.poke_pi (s : State) (a n v : Nat) : (s.poke a n v).pi = s.pi := rfl
@[simp] theorem State.poke_tr (s : State) (a n v : Nat) : (s.poke a n v).tr = s.tr := rfl
@[simp] theorem State.poke_oe (s : State) (a n v : Nat) : (s.poke a n v).oe = s.oe := rfl
@[simp] theorem State.poke_ie (s : State) (a n v : Nat) : (s.poke a n v).ie = s.ie := rfl
@[simp] theorem State.poke_inp (s : State) (a n v : Nat) : (s.poke a n v).inp = s.inp := rfl
@[simp] theorem State.poke_out (s : State) (a n v : Nat) : (s.poke a n v).out = s.out := rfl
@[simp] theorem State.poke_errorFlag (s : State) (a n v : Nat) : (s.poke a n v).errorFlag = s.errorFlag := rfl
@[simp] theorem State.poke_ceLatch (s : State) (a n v : Nat) : (s.poke a n v).ceLatch = s.ceLatch := rfl
@[simp] theorem State.poke_ueLatch (s : State) (a n v : Nat) : (s.poke a n v).ueLatch = s.ueLatch := rfl
@[simp] theorem State.poke_ueActive (s : State) (a n v : Nat) : (s.poke a n v).ueActive = s.ueActive := rfl
@[simp] theorem State.poke_idle (s : State) (a n v : Nat) : (s.poke a n v).idle = s.idle := rfl
@[simp] theorem State.poke_pastEnd (s : State) (a n v : Nat) : (s.poke a n v).pastEnd = s.pastEnd := rfl
@[simp] theorem State.poke_mem (s : State) (a n v : Nat) : (s.poke a n v).mem = s.mem.writeN a n v := rfl
@[simp] theorem State.poke_events (s : State) (a n v : Nat) : (s.poke a n v).events = s.events := rfl
@[simp] theorem State.poke_bus (s : State) (a n v : Nat) : (s.poke a n v).bus = s.bus := rfl
@[simp] theorem State.poke_hostReads (s : State) (a n v : Nat) : (s.poke a n v).hostReads = s.hostReads := rfl
@[simp] theorem State.poke_free (s : State) (a n v : Nat) : (s.poke a n v).free = s.free := rfl
@[simp] theorem State.poke_cfg (s : State) (a n v : Nat) : (s.poke a n v).cfg = s.cfg := rfl

/-! ## clearRep -/

@[simp] theorem State.clearRep_regs (s : State) : (s.clearRep).regs = s.regs := rfl
@[simp] theorem State.clearRep_pc (s : State) : (s.clearRep).pc = s.pc := rfl
@[simp] theorem State.clearRep_sp (s : State) : (s.clearRep).sp = s.sp := rfl
@[simp] theorem State.clearRep_ps (s : State) : (s.clearRep).ps = { s.ps with rep := 0 } := rfl
@[simp] theorem State.clearRep_fr (s : State) : (s.clearRep).fr = s.fr := rfl
@[simp] theorem State.clearRep_cr (s : State) : (s.clearRep).cr = s.cr := rfl
@[simp] theorem State.clearRep_pi (s : State) : (s.clearRep).pi = s.pi := rfl
@[simp] theorem State.clearRep_tr (s : State) : (s.clearRep).tr = s.tr := rfl
@[simp] theorem State.clearRep_oe (s : State) : (s.clearRep).oe = s.oe := rfl
@[simp] theorem State.clearRep_ie (s : State) : (s.clearRep).ie = s.ie := rfl
@[simp] theorem State.clearRep_inp (s : State) : (s.clearRep).inp = s.inp := rfl
@[simp] theorem State.clearRep_out (s : State) : (s.clearRep).out = s.out := rfl
@[simp] theorem State.clearRep_errorFlag (s : State) : (s.clearRep).errorFlag = s.errorFlag := rfl
@[simp] theorem State.clearRep_ceLatch (s : State) : (s.clearRep).ceLatch = s.ceLatch := rfl
@[simp] theorem State.clearRep_ueLatch (s : State) : (s.clearRep).ueLatch = s.ueLatch := rfl
@[simp] theorem State.clearRep_ueActive (s : State) : (s.clearRep).ueActive = s.ueActive := rfl
@[simp] theorem State.clearRep_idle (s : State) : (s.clearRep).idle = s.idle := rfl
@[simp] theorem State.clearRep_pastEnd (s : State) : (s.clearRep).pastEnd = s.pastEnd := rfl
@[simp] theorem State.clearRep_mem (s : State) : (s.clearRep).mem = s.mem := rfl
@[simp] theorem State.clearRep_fetch (s : State) : (s.clearRep).fetch = s.fetch := rfl
@[simp] theorem State.clearRep_events (s : State) : (s.clearRep).events = s.events := rfl
@[simp] theorem State.clearRep_bus (s : State) : (s.clearRep).bus = s.bus := rfl
@[simp] theorem State.clearRep_hostReads (s : State) : (s.clearRep).hostReads = s.hostReads := rfl
@[simp] theorem State.clearRep_free (s : State) : (s.clearRep).free = s.free := rfl
@[simp] theorem State.clearRep_cfg (s : State) : (s.clearRep).cfg = s.cfg := rfl

/-! ## countDown -/

@[simp] theorem State.countDown_pc (s : State) (r : Fin 16) : (s.countDown r).pc = s.pc := rfl
@[simp] theorem State.countDown_sp (s : State) (r : Fin 16) : (s.countDown r).sp = s.sp := rfl
@[simp] theorem State.countDown_ps (s : State) (r : Fin 16) : (s.countDown r).ps = s.ps := rfl
@[simp] theorem State.countDown_fr (s : State) (r : Fin 16) : (s.countDown r).fr = s.fr := rfl
@[simp] theorem State.countDown_cr (s : State) (r : Fin 16) : (s.countDown r).cr = s.cr := rfl
@[simp] theorem State.countDown_pi (s : State) (r : Fin 16) : (s.countDown r).pi = s.pi := rfl
@[simp] theorem State.countDown_tr (s : State) (r : Fin 16) : (s.countDown r).tr = s.tr := rfl
@[simp] theorem State.countDown_oe (s : State) (r : Fin 16) : (s.countDown r).oe = s.oe := rfl
@[simp] theorem State.countDown_ie (s : State) (r : Fin 16) : (s.countDown r).ie = s.ie := rfl
@[simp] theorem State.countDown_inp (s : State) (r : Fin 16) : (s.countDown r).inp = s.inp := rfl
@[simp] theorem State.countDown_out (s : State) (r : Fin 16) : (s.countDown r).out = s.out := rfl
@[simp] theorem State.countDown_errorFlag (s : State) (r : Fin 16) : (s.countDown r).errorFlag = s.errorFlag := rfl
@[simp] theorem State.countDown_ceLatch (s : State) (r : Fin 16) : (s.countDown r).ceLatch = s.ceLatch := rfl
@[simp] theorem State.countDown_ueLatch (s : State) (r : Fin 16) : (s.countDown r).ueLatch = s.ueLatch := rfl
@[simp] theorem State.countDown_ueActive (s : State) (r : Fin 16) : (s.countDown r).ueActive = s.ueActive := rfl
@[simp] theorem State.countDown_idle (s : State) (r : Fin 16) : (s.countDown r).idle = s.idle := rfl
@[simp] theorem State.countDown_pastEnd (s : State) (r : Fin 16) : (s.countDown r).pastEnd = s.pastEnd := rfl
@[simp] theorem State.countDown_mem (s : State) (r : Fin 16) : (s.countDown r).mem = s.mem := rfl
@[simp] theorem State.countDown_fetch (s : State) (r : Fin 16) : (s.countDown r).fetch = s.fetch := rfl
@[simp] theorem State.countDown_events (s : State) (r : Fin 16) : (s.countDown r).events = s.events := rfl
@[simp] theorem State.countDown_bus (s : State) (r : Fin 16) : (s.countDown r).bus = s.bus := rfl
@[simp] theorem State.countDown_hostReads (s : State) (r : Fin 16) : (s.countDown r).hostReads = s.hostReads := rfl
@[simp] theorem State.countDown_free (s : State) (r : Fin 16) : (s.countDown r).free = s.free := rfl
@[simp] theorem State.countDown_cfg (s : State) (r : Fin 16) : (s.countDown r).cfg = s.cfg := rfl

/-! ## setFr -/

@[simp] theorem State.setFr_regs (s : State) (f : FrFields) : (s.setFr f).regs = s.regs := rfl
@[simp] theorem State.setFr_pc (s : State) (f : FrFields) : (s.setFr f).pc = s.pc := rfl
@[simp] theorem State.setFr_sp (s : State) (f : FrFields) : (s.setFr f).sp = s.sp := rfl
@[simp] theorem State.setFr_ps (s : State) (f : FrFields) : (s.setFr f).ps = s.ps := rfl
@[simp] theorem State.setFr_fr (s : State) (f : FrFields) : (s.setFr f).fr = f.toWord (s.freeNext 21) := rfl
@[simp] theorem State.setFr_cr (s : State) (f : FrFields) : (s.setFr f).cr = s.cr := rfl
@[simp] theorem State.setFr_pi (s : State) (f : FrFields) : (s.setFr f).pi = s.pi := rfl
@[simp] theorem State.setFr_tr (s : State) (f : FrFields) : (s.setFr f).tr = s.tr := rfl
@[simp] theorem State.setFr_oe (s : State) (f : FrFields) : (s.setFr f).oe = s.oe := rfl
@[simp] theorem State.setFr_ie (s : State) (f : FrFields) : (s.setFr f).ie = s.ie := rfl
@[simp] theorem State.setFr_inp (s : State) (f : FrFields) : (s.setFr f).inp = s.inp := rfl
@[simp] theorem State.setFr_out (s : State) (f : FrFields) : (s.setFr f).out = s.out := rfl
@[simp] theorem State.setFr_errorFlag (s : State) (f : FrFields) : (s.setFr f).errorFlag = s.errorFlag := rfl
@[simp] theorem State.setFr_ceLatch (s : State) (f : FrFields) : (s.setFr f).ceLatch = s.ceLatch := rfl
@[simp] theorem State.setFr_ueLatch (s : State) (f : FrFields) : (s.setFr f).ueLatch = s.ueLatch := rfl
@[simp] theorem State.setFr_ueActive (s : State) (f : FrFields) : (s.setFr f).ueActive = s.ueActive := rfl
@[simp] theorem State.setFr_idle (s : State) (f : FrFields) : (s.setFr f).idle = s.idle := rfl
@[simp] theorem State.setFr_pastEnd (s : State) (f : FrFields) : (s.setFr f).pastEnd = s.pastEnd := rfl
@[simp] theorem State.setFr_mem (s : State) (f : FrFields) : (s.setFr f).mem = s.mem := rfl
@[simp] theorem State.setFr_fetch (s : State) (f : FrFields) : (s.setFr f).fetch = s.fetch := rfl
@[simp] theorem State.setFr_events (s : State) (f : FrFields) : (s.setFr f).events = s.events := rfl
@[simp] theorem State.setFr_bus (s : State) (f : FrFields) : (s.setFr f).bus = s.bus := rfl
@[simp] theorem State.setFr_hostReads (s : State) (f : FrFields) : (s.setFr f).hostReads = s.hostReads := rfl
@[simp] theorem State.setFr_free (s : State) (f : FrFields) : (s.setFr f).free = s.free + 1 := rfl
@[simp] theorem State.setFr_cfg (s : State) (f : FrFields) : (s.setFr f).cfg = s.cfg := rfl

/-! ## mapOut -/

@[simp] theorem State.mapOut_regs (s : State) (f : Fin 11 → OutPort → OutPort) : (s.mapOut f).regs = s.regs := rfl
@[simp] theorem State.mapOut_pc (s : State) (f : Fin 11 → OutPort → OutPort) : (s.mapOut f).pc = s.pc := rfl
@[simp] theorem State.mapOut_sp (s : State) (f : Fin 11 → OutPort → OutPort) : (s.mapOut f).sp = s.sp := rfl
@[simp] theorem State.mapOut_ps (s : State) (f : Fin 11 → OutPort → OutPort) : (s.mapOut f).ps = s.ps := rfl
@[simp] theorem State.mapOut_fr (s : State) (f : Fin 11 → OutPort → OutPort) : (s.mapOut f).fr = s.fr := rfl
@[simp] theorem State.mapOut_cr (s : State) (f : Fin 11 → OutPort → OutPort) : (s.mapOut f).cr = s.cr := rfl
@[simp] theorem State.mapOut_pi (s : State) (f : Fin 11 → OutPort → OutPort) : (s.mapOut f).pi = s.pi := rfl
@[simp] theorem State.mapOut_tr (s : State) (f : Fin 11 → OutPort → OutPort) : (s.mapOut f).tr = s.tr := rfl
@[simp] theorem State.mapOut_oe (s : State) (f : Fin 11 → OutPort → OutPort) : (s.mapOut f).oe = s.oe := rfl
@[simp] theorem State.mapOut_ie (s : State) (f : Fin 11 → OutPort → OutPort) : (s.mapOut f).ie = s.ie := rfl
@[simp] theorem State.mapOut_inp (s : State) (f : Fin 11 → OutPort → OutPort) : (s.mapOut f).inp = s.inp := rfl
@[simp] theorem State.mapOut_out (s : State) (f : Fin 11 → OutPort → OutPort) : (s.mapOut f).out = Vector.ofFn (fun i => f i (s.outPort i)) := rfl
@[simp] theorem State.mapOut_errorFlag (s : State) (f : Fin 11 → OutPort → OutPort) : (s.mapOut f).errorFlag = s.errorFlag := rfl
@[simp] theorem State.mapOut_ceLatch (s : State) (f : Fin 11 → OutPort → OutPort) : (s.mapOut f).ceLatch = s.ceLatch := rfl
@[simp] theorem State.mapOut_ueLatch (s : State) (f : Fin 11 → OutPort → OutPort) : (s.mapOut f).ueLatch = s.ueLatch := rfl
@[simp] theorem State.mapOut_ueActive (s : State) (f : Fin 11 → OutPort → OutPort) : (s.mapOut f).ueActive = s.ueActive := rfl
@[simp] theorem State.mapOut_idle (s : State) (f : Fin 11 → OutPort → OutPort) : (s.mapOut f).idle = s.idle := rfl
@[simp] theorem State.mapOut_pastEnd (s : State) (f : Fin 11 → OutPort → OutPort) : (s.mapOut f).pastEnd = s.pastEnd := rfl
@[simp] theorem State.mapOut_mem (s : State) (f : Fin 11 → OutPort → OutPort) : (s.mapOut f).mem = s.mem := rfl
@[simp] theorem State.mapOut_fetch (s : State) (f : Fin 11 → OutPort → OutPort) : (s.mapOut f).fetch = s.fetch := rfl
@[simp] theorem State.mapOut_events (s : State) (f : Fin 11 → OutPort → OutPort) : (s.mapOut f).events = s.events := rfl
@[simp] theorem State.mapOut_bus (s : State) (f : Fin 11 → OutPort → OutPort) : (s.mapOut f).bus = s.bus := rfl
@[simp] theorem State.mapOut_hostReads (s : State) (f : Fin 11 → OutPort → OutPort) : (s.mapOut f).hostReads = s.hostReads := rfl
@[simp] theorem State.mapOut_free (s : State) (f : Fin 11 → OutPort → OutPort) : (s.mapOut f).free = s.free := rfl
@[simp] theorem State.mapOut_cfg (s : State) (f : Fin 11 → OutPort → OutPort) : (s.mapOut f).cfg = s.cfg := rfl

/-! ## rset -/

@[simp] theorem State.rset_regs (s : State) : (s.rset).regs = s.regs := rfl
@[simp] theorem State.rset_pc (s : State) : (s.rset).pc = s.pc := rfl
@[simp] theorem State.rset_sp (s : State) : (s.rset).sp = s.sp := rfl
@[simp] theorem State.rset_ps (s : State) : (s.rset).ps = s.ps := rfl
@[simp] theorem State.rset_fr (s : State) : (s.rset).fr = s.fr := rfl
@[simp] theorem State.rset_cr (s : State) : (s.rset).cr = s.cr := rfl
@[simp] theorem State.rset_pi (s : State) : (s.rset).pi = s.pi := rfl
@[simp] theorem State.rset_tr (s : State) : (s.rset).tr = s.tr := rfl
@[simp] theorem State.rset_oe (s : State) : (s.rset).oe = s.oe := rfl
@[simp] theorem State.rset_ie (s : State) : (s.rset).ie = s.ie := rfl
@[simp] theorem State.rset_inp (s : State) : (s.rset).inp = s.inp.map InPort.abort := rfl
@[simp] theorem State.rset_out (s : State) : (s.rset).out = s.out.map OutPort.abort := rfl
@[simp] theorem State.rset_errorFlag (s : State) : (s.rset).errorFlag = s.errorFlag := rfl
@[simp] theorem State.rset_ceLatch (s : State) : (s.rset).ceLatch = false := rfl
@[simp] theorem State.rset_ueLatch (s : State) : (s.rset).ueLatch = none := rfl
@[simp] theorem State.rset_ueActive (s : State) : (s.rset).ueActive = false := rfl
@[simp] theorem State.rset_idle (s : State) : (s.rset).idle = s.idle := rfl
@[simp] theorem State.rset_pastEnd (s : State) : (s.rset).pastEnd = s.pastEnd := rfl
@[simp] theorem State.rset_mem (s : State) : (s.rset).mem = s.mem := rfl
@[simp] theorem State.rset_fetch (s : State) : (s.rset).fetch = s.fetch := rfl
@[simp] theorem State.rset_events (s : State) : (s.rset).events = s.events := rfl
@[simp] theorem State.rset_bus (s : State) : (s.rset).bus = s.bus := rfl
@[simp] theorem State.rset_hostReads (s : State) : (s.rset).hostReads = s.hostReads := rfl
@[simp] theorem State.rset_free (s : State) : (s.rset).free = s.free := rfl
@[simp] theorem State.rset_cfg (s : State) : (s.rset).cfg = s.cfg := rfl

/-! ## broadcastSent -/

@[simp] theorem State.broadcastSent_regs (s : State) (h : Half) : (s.broadcastSent h).regs = s.regs := rfl
@[simp] theorem State.broadcastSent_pc (s : State) (h : Half) : (s.broadcastSent h).pc = s.pc := rfl
@[simp] theorem State.broadcastSent_sp (s : State) (h : Half) : (s.broadcastSent h).sp = s.sp := rfl
@[simp] theorem State.broadcastSent_ps (s : State) (h : Half) : (s.broadcastSent h).ps = s.ps := rfl
@[simp] theorem State.broadcastSent_fr (s : State) (h : Half) : (s.broadcastSent h).fr = s.fr := rfl
@[simp] theorem State.broadcastSent_cr (s : State) (h : Half) : (s.broadcastSent h).cr = s.cr := rfl
@[simp] theorem State.broadcastSent_pi (s : State) (h : Half) : (s.broadcastSent h).pi = s.pi := rfl
@[simp] theorem State.broadcastSent_tr (s : State) (h : Half) : (s.broadcastSent h).tr = s.tr := rfl
@[simp] theorem State.broadcastSent_oe (s : State) (h : Half) : (s.broadcastSent h).oe = s.oe := rfl
@[simp] theorem State.broadcastSent_ie (s : State) (h : Half) : (s.broadcastSent h).ie = s.ie := rfl
@[simp] theorem State.broadcastSent_inp (s : State) (h : Half) : (s.broadcastSent h).inp = s.inp := rfl
@[simp] theorem State.broadcastSent_errorFlag (s : State) (h : Half) : (s.broadcastSent h).errorFlag = s.errorFlag := rfl
@[simp] theorem State.broadcastSent_ceLatch (s : State) (h : Half) : (s.broadcastSent h).ceLatch = s.ceLatch := rfl
@[simp] theorem State.broadcastSent_ueLatch (s : State) (h : Half) : (s.broadcastSent h).ueLatch = s.ueLatch := rfl
@[simp] theorem State.broadcastSent_ueActive (s : State) (h : Half) : (s.broadcastSent h).ueActive = s.ueActive := rfl
@[simp] theorem State.broadcastSent_idle (s : State) (h : Half) : (s.broadcastSent h).idle = s.idle := rfl
@[simp] theorem State.broadcastSent_pastEnd (s : State) (h : Half) : (s.broadcastSent h).pastEnd = s.pastEnd := rfl
@[simp] theorem State.broadcastSent_mem (s : State) (h : Half) : (s.broadcastSent h).mem = s.mem := rfl
@[simp] theorem State.broadcastSent_fetch (s : State) (h : Half) : (s.broadcastSent h).fetch = s.fetch := rfl
@[simp] theorem State.broadcastSent_events (s : State) (h : Half) : (s.broadcastSent h).events = s.events := rfl
@[simp] theorem State.broadcastSent_bus (s : State) (h : Half) : (s.broadcastSent h).bus = s.bus := rfl
@[simp] theorem State.broadcastSent_hostReads (s : State) (h : Half) : (s.broadcastSent h).hostReads = s.hostReads := rfl
@[simp] theorem State.broadcastSent_free (s : State) (h : Half) : (s.broadcastSent h).free = s.free := rfl
@[simp] theorem State.broadcastSent_cfg (s : State) (h : Half) : (s.broadcastSent h).cfg = s.cfg := rfl

/-! ## noteUncorrectable -/

@[simp] theorem State.noteUncorrectable_regs (s : State) (a n : Nat) : (s.noteUncorrectable a n).regs = s.regs := rfl
@[simp] theorem State.noteUncorrectable_pc (s : State) (a n : Nat) : (s.noteUncorrectable a n).pc = s.pc := rfl
@[simp] theorem State.noteUncorrectable_sp (s : State) (a n : Nat) : (s.noteUncorrectable a n).sp = s.sp := rfl
@[simp] theorem State.noteUncorrectable_ps (s : State) (a n : Nat) : (s.noteUncorrectable a n).ps = s.ps := rfl
@[simp] theorem State.noteUncorrectable_fr (s : State) (a n : Nat) : (s.noteUncorrectable a n).fr = s.fr := rfl
@[simp] theorem State.noteUncorrectable_cr (s : State) (a n : Nat) : (s.noteUncorrectable a n).cr = s.cr := rfl
@[simp] theorem State.noteUncorrectable_pi (s : State) (a n : Nat) : (s.noteUncorrectable a n).pi = s.pi := rfl
@[simp] theorem State.noteUncorrectable_tr (s : State) (a n : Nat) : (s.noteUncorrectable a n).tr = s.tr := rfl
@[simp] theorem State.noteUncorrectable_oe (s : State) (a n : Nat) : (s.noteUncorrectable a n).oe = s.oe := rfl
@[simp] theorem State.noteUncorrectable_ie (s : State) (a n : Nat) : (s.noteUncorrectable a n).ie = s.ie := rfl
@[simp] theorem State.noteUncorrectable_inp (s : State) (a n : Nat) : (s.noteUncorrectable a n).inp = s.inp := rfl
@[simp] theorem State.noteUncorrectable_out (s : State) (a n : Nat) : (s.noteUncorrectable a n).out = s.out := rfl
@[simp] theorem State.noteUncorrectable_errorFlag (s : State) (a n : Nat) : (s.noteUncorrectable a n).errorFlag = (s.errorFlag || s.ueActive || s.ueLatch.isSome) := rfl
@[simp] theorem State.noteUncorrectable_ceLatch (s : State) (a n : Nat) : (s.noteUncorrectable a n).ceLatch = s.ceLatch := rfl
@[simp] theorem State.noteUncorrectable_ueLatch (s : State) (a n : Nat) : (s.noteUncorrectable a n).ueLatch = some (a, n) := rfl
@[simp] theorem State.noteUncorrectable_ueActive (s : State) (a n : Nat) : (s.noteUncorrectable a n).ueActive = s.ueActive := rfl
@[simp] theorem State.noteUncorrectable_idle (s : State) (a n : Nat) : (s.noteUncorrectable a n).idle = s.idle := rfl
@[simp] theorem State.noteUncorrectable_pastEnd (s : State) (a n : Nat) : (s.noteUncorrectable a n).pastEnd = s.pastEnd := rfl
@[simp] theorem State.noteUncorrectable_mem (s : State) (a n : Nat) : (s.noteUncorrectable a n).mem = s.mem := rfl
@[simp] theorem State.noteUncorrectable_fetch (s : State) (a n : Nat) : (s.noteUncorrectable a n).fetch = s.fetch := rfl
@[simp] theorem State.noteUncorrectable_events (s : State) (a n : Nat) : (s.noteUncorrectable a n).events = s.events := rfl
@[simp] theorem State.noteUncorrectable_bus (s : State) (a n : Nat) : (s.noteUncorrectable a n).bus = s.bus := rfl
@[simp] theorem State.noteUncorrectable_hostReads (s : State) (a n : Nat) : (s.noteUncorrectable a n).hostReads = s.hostReads := rfl
@[simp] theorem State.noteUncorrectable_free (s : State) (a n : Nat) : (s.noteUncorrectable a n).free = s.free := rfl
@[simp] theorem State.noteUncorrectable_cfg (s : State) (a n : Nat) : (s.noteUncorrectable a n).cfg = s.cfg := rfl

/-! ## scramble -/

@[simp] theorem State.scramble_pc (s : State) (a n : Nat) : (s.scramble a n).pc = s.pc := by
  simp only [State.scramble, State.noteWrite_pc]
@[simp] theorem State.scramble_sp (s : State) (a n : Nat) : (s.scramble a n).sp = s.sp := by
  simp only [State.scramble, State.noteWrite_sp]
@[simp] theorem State.scramble_fr (s : State) (a n : Nat) : (s.scramble a n).fr = s.fr := by
  simp only [State.scramble, State.noteWrite_fr]
@[simp] theorem State.scramble_cr (s : State) (a n : Nat) : (s.scramble a n).cr = s.cr := by
  simp only [State.scramble, State.noteWrite_cr]
@[simp] theorem State.scramble_pi (s : State) (a n : Nat) : (s.scramble a n).pi = s.pi := by
  simp only [State.scramble, State.noteWrite_pi]
@[simp] theorem State.scramble_tr (s : State) (a n : Nat) : (s.scramble a n).tr = s.tr := by
  simp only [State.scramble, State.noteWrite_tr]
@[simp] theorem State.scramble_oe (s : State) (a n : Nat) : (s.scramble a n).oe = s.oe := by
  simp only [State.scramble, State.noteWrite_oe]
@[simp] theorem State.scramble_ie (s : State) (a n : Nat) : (s.scramble a n).ie = s.ie := by
  simp only [State.scramble, State.noteWrite_ie]
@[simp] theorem State.scramble_inp (s : State) (a n : Nat) : (s.scramble a n).inp = s.inp := by
  simp only [State.scramble, State.noteWrite_inp]
@[simp] theorem State.scramble_out (s : State) (a n : Nat) : (s.scramble a n).out = s.out := by
  simp only [State.scramble, State.noteWrite_out]
@[simp] theorem State.scramble_errorFlag (s : State) (a n : Nat) : (s.scramble a n).errorFlag = s.errorFlag := by
  simp only [State.scramble, State.noteWrite_errorFlag]
@[simp] theorem State.scramble_ceLatch (s : State) (a n : Nat) : (s.scramble a n).ceLatch = s.ceLatch := by
  simp only [State.scramble, State.noteWrite_ceLatch]
@[simp] theorem State.scramble_ueLatch (s : State) (a n : Nat) : (s.scramble a n).ueLatch = none := by
  simp only [State.scramble, State.noteWrite_ueLatch]
@[simp] theorem State.scramble_ueActive (s : State) (a n : Nat) : (s.scramble a n).ueActive = true := by
  simp only [State.scramble, State.noteWrite_ueActive]
@[simp] theorem State.scramble_idle (s : State) (a n : Nat) : (s.scramble a n).idle = s.idle := by
  simp only [State.scramble, State.noteWrite_idle]
@[simp] theorem State.scramble_pastEnd (s : State) (a n : Nat) : (s.scramble a n).pastEnd = s.pastEnd := by
  simp only [State.scramble, State.noteWrite_pastEnd]
@[simp] theorem State.scramble_events (s : State) (a n : Nat) : (s.scramble a n).events = s.events := by
  simp only [State.scramble, State.noteWrite_events]
@[simp] theorem State.scramble_bus (s : State) (a n : Nat) : (s.scramble a n).bus = s.bus := by
  simp only [State.scramble, State.noteWrite_bus]
@[simp] theorem State.scramble_hostReads (s : State) (a n : Nat) : (s.scramble a n).hostReads = s.hostReads := by
  simp only [State.scramble, State.noteWrite_hostReads]
@[simp] theorem State.scramble_free (s : State) (a n : Nat) : (s.scramble a n).free = s.free + 18 + n := by
  simp only [State.scramble, State.noteWrite_free]
@[simp] theorem State.scramble_cfg (s : State) (a n : Nat) : (s.scramble a n).cfg = s.cfg := by
  simp only [State.scramble, State.noteWrite_cfg]

/-! ## handling -/

@[simp] theorem State.handling_regs (s : State) (va nps : Word) : (s.handling va nps).regs = s.regs := rfl
@[simp] theorem State.handling_pc (s : State) (va nps : Word) : (s.handling va nps).pc = va := rfl
@[simp] theorem State.handling_sp (s : State) (va nps : Word) : (s.handling va nps).sp = s.sp := rfl
@[simp] theorem State.handling_ps (s : State) (va nps : Word) : (s.handling va nps).ps = PsReg.ofWord s.cfg nps := rfl
@[simp] theorem State.handling_fr (s : State) (va nps : Word) : (s.handling va nps).fr = s.fr := rfl
@[simp] theorem State.handling_cr (s : State) (va nps : Word) : (s.handling va nps).cr = s.cr := rfl
@[simp] theorem State.handling_pi (s : State) (va nps : Word) : (s.handling va nps).pi = s.pi := rfl
@[simp] theorem State.handling_tr (s : State) (va nps : Word) : (s.handling va nps).tr = s.tr := rfl
@[simp] theorem State.handling_oe (s : State) (va nps : Word) : (s.handling va nps).oe = s.oe := rfl
@[simp] theorem State.handling_ie (s : State) (va nps : Word) : (s.handling va nps).ie = s.ie := rfl
@[simp] theorem State.handling_inp (s : State) (va nps : Word) : (s.handling va nps).inp = s.inp := rfl
@[simp] theorem State.handling_out (s : State) (va nps : Word) : (s.handling va nps).out = s.out := rfl
@[simp] theorem State.handling_errorFlag (s : State) (va nps : Word) : (s.handling va nps).errorFlag = s.errorFlag := rfl
@[simp] theorem State.handling_ceLatch (s : State) (va nps : Word) : (s.handling va nps).ceLatch = s.ceLatch := rfl
@[simp] theorem State.handling_ueLatch (s : State) (va nps : Word) : (s.handling va nps).ueLatch = s.ueLatch := rfl
@[simp] theorem State.handling_ueActive (s : State) (va nps : Word) : (s.handling va nps).ueActive = s.ueActive := rfl
@[simp] theorem State.handling_idle (s : State) (va nps : Word) : (s.handling va nps).idle = false := rfl
@[simp] theorem State.handling_pastEnd (s : State) (va nps : Word) : (s.handling va nps).pastEnd = false := rfl
@[simp] theorem State.handling_mem (s : State) (va nps : Word) : (s.handling va nps).mem = s.mem := rfl
@[simp] theorem State.handling_events (s : State) (va nps : Word) : (s.handling va nps).events = s.events := rfl
@[simp] theorem State.handling_bus (s : State) (va nps : Word) : (s.handling va nps).bus = s.bus := rfl
@[simp] theorem State.handling_hostReads (s : State) (va nps : Word) : (s.handling va nps).hostReads = s.hostReads := rfl
@[simp] theorem State.handling_free (s : State) (va nps : Word) : (s.handling va nps).free = s.free := rfl
@[simp] theorem State.handling_cfg (s : State) (va nps : Word) : (s.handling va nps).cfg = s.cfg := rfl

/-! ## placed -/

@[simp] theorem State.placed_regs (s : State) (bs : List Byte) : (s.placed bs).regs = s.regs := rfl
@[simp] theorem State.placed_pc (s : State) (bs : List Byte) : (s.placed bs).pc = s.pc := rfl
@[simp] theorem State.placed_sp (s : State) (bs : List Byte) : (s.placed bs).sp = s.sp := rfl
@[simp] theorem State.placed_ps (s : State) (bs : List Byte) : (s.placed bs).ps = s.ps := rfl
@[simp] theorem State.placed_fr (s : State) (bs : List Byte) : (s.placed bs).fr = s.fr := rfl
@[simp] theorem State.placed_cr (s : State) (bs : List Byte) : (s.placed bs).cr = s.cr := rfl
@[simp] theorem State.placed_pi (s : State) (bs : List Byte) : (s.placed bs).pi = s.pi := rfl
@[simp] theorem State.placed_tr (s : State) (bs : List Byte) : (s.placed bs).tr = s.tr := rfl
@[simp] theorem State.placed_oe (s : State) (bs : List Byte) : (s.placed bs).oe = s.oe := rfl
@[simp] theorem State.placed_ie (s : State) (bs : List Byte) : (s.placed bs).ie = s.ie := rfl
@[simp] theorem State.placed_inp (s : State) (bs : List Byte) : (s.placed bs).inp = s.inp := rfl
@[simp] theorem State.placed_out (s : State) (bs : List Byte) : (s.placed bs).out = s.out := rfl
@[simp] theorem State.placed_errorFlag (s : State) (bs : List Byte) : (s.placed bs).errorFlag = s.errorFlag := rfl
@[simp] theorem State.placed_ceLatch (s : State) (bs : List Byte) : (s.placed bs).ceLatch = s.ceLatch := rfl
@[simp] theorem State.placed_ueLatch (s : State) (bs : List Byte) : (s.placed bs).ueLatch = s.ueLatch := rfl
@[simp] theorem State.placed_ueActive (s : State) (bs : List Byte) : (s.placed bs).ueActive = s.ueActive := rfl
@[simp] theorem State.placed_idle (s : State) (bs : List Byte) : (s.placed bs).idle = false := rfl
@[simp] theorem State.placed_pastEnd (s : State) (bs : List Byte) : (s.placed bs).pastEnd = false := rfl
@[simp] theorem State.placed_mem (s : State) (bs : List Byte) : (s.placed bs).mem = writeBytes s.mem s.pc.toNat bs := rfl
@[simp] theorem State.placed_fetch (s : State) (bs : List Byte) : (s.placed bs).fetch = ⟨[], [], []⟩ := rfl
@[simp] theorem State.placed_events (s : State) (bs : List Byte) : (s.placed bs).events = [] := rfl
@[simp] theorem State.placed_bus (s : State) (bs : List Byte) : (s.placed bs).bus = s.bus := rfl
@[simp] theorem State.placed_hostReads (s : State) (bs : List Byte) : (s.placed bs).hostReads = s.hostReads := rfl
@[simp] theorem State.placed_free (s : State) (bs : List Byte) : (s.placed bs).free = s.free := rfl
@[simp] theorem State.placed_cfg (s : State) (bs : List Byte) : (s.placed bs).cfg = s.cfg := rfl


/-! ## advance: pc moves, the instruction buffer is noted -/

@[simp] theorem State.advance_regs (s : State) (d : Done) (w : Word) : (s.advance d w).regs = s.regs := by
  unfold State.advance; cases d.entered <;> cases d.jumped <;> rfl
@[simp] theorem State.advance_pc (s : State) (d : Done) (w : Word) : (s.advance d w).pc = d.next := by
  unfold State.advance; cases d.entered <;> cases d.jumped <;> rfl
@[simp] theorem State.advance_sp (s : State) (d : Done) (w : Word) : (s.advance d w).sp = s.sp := by
  unfold State.advance; cases d.entered <;> cases d.jumped <;> rfl
@[simp] theorem State.advance_ps (s : State) (d : Done) (w : Word) : (s.advance d w).ps = s.ps := by
  unfold State.advance; cases d.entered <;> cases d.jumped <;> rfl
@[simp] theorem State.advance_fr (s : State) (d : Done) (w : Word) : (s.advance d w).fr = s.fr := by
  unfold State.advance; cases d.entered <;> cases d.jumped <;> rfl
@[simp] theorem State.advance_cr (s : State) (d : Done) (w : Word) : (s.advance d w).cr = s.cr := by
  unfold State.advance; cases d.entered <;> cases d.jumped <;> rfl
@[simp] theorem State.advance_pi (s : State) (d : Done) (w : Word) : (s.advance d w).pi = s.pi := by
  unfold State.advance; cases d.entered <;> cases d.jumped <;> rfl
@[simp] theorem State.advance_tr (s : State) (d : Done) (w : Word) : (s.advance d w).tr = s.tr := by
  unfold State.advance; cases d.entered <;> cases d.jumped <;> rfl
@[simp] theorem State.advance_oe (s : State) (d : Done) (w : Word) : (s.advance d w).oe = s.oe := by
  unfold State.advance; cases d.entered <;> cases d.jumped <;> rfl
@[simp] theorem State.advance_ie (s : State) (d : Done) (w : Word) : (s.advance d w).ie = s.ie := by
  unfold State.advance; cases d.entered <;> cases d.jumped <;> rfl
@[simp] theorem State.advance_inp (s : State) (d : Done) (w : Word) : (s.advance d w).inp = s.inp := by
  unfold State.advance; cases d.entered <;> cases d.jumped <;> rfl
@[simp] theorem State.advance_out (s : State) (d : Done) (w : Word) : (s.advance d w).out = s.out := by
  unfold State.advance; cases d.entered <;> cases d.jumped <;> rfl
@[simp] theorem State.advance_errorFlag (s : State) (d : Done) (w : Word) : (s.advance d w).errorFlag = s.errorFlag := by
  unfold State.advance; cases d.entered <;> cases d.jumped <;> rfl
@[simp] theorem State.advance_ceLatch (s : State) (d : Done) (w : Word) : (s.advance d w).ceLatch = s.ceLatch := by
  unfold State.advance; cases d.entered <;> cases d.jumped <;> rfl
@[simp] theorem State.advance_ueLatch (s : State) (d : Done) (w : Word) : (s.advance d w).ueLatch = s.ueLatch := by
  unfold State.advance; cases d.entered <;> cases d.jumped <;> rfl
@[simp] theorem State.advance_ueActive (s : State) (d : Done) (w : Word) : (s.advance d w).ueActive = s.ueActive := by
  unfold State.advance; cases d.entered <;> cases d.jumped <;> rfl
@[simp] theorem State.advance_idle (s : State) (d : Done) (w : Word) : (s.advance d w).idle = s.idle := by
  unfold State.advance; cases d.entered <;> cases d.jumped <;> rfl
@[simp] theorem State.advance_pastEnd (s : State) (d : Done) (w : Word) : (s.advance d w).pastEnd = (!d.jumped && !d.entered && wraps w d.next) := by
  unfold State.advance; cases d.entered <;> cases d.jumped <;> simp
@[simp] theorem State.advance_mem (s : State) (d : Done) (w : Word) : (s.advance d w).mem = s.mem := by
  unfold State.advance; cases d.entered <;> cases d.jumped <;> rfl
@[simp] theorem State.advance_events (s : State) (d : Done) (w : Word) : (s.advance d w).events = s.events := by
  unfold State.advance; cases d.entered <;> cases d.jumped <;> rfl
@[simp] theorem State.advance_bus (s : State) (d : Done) (w : Word) : (s.advance d w).bus = s.bus := by
  unfold State.advance; cases d.entered <;> cases d.jumped <;> rfl
@[simp] theorem State.advance_hostReads (s : State) (d : Done) (w : Word) : (s.advance d w).hostReads = s.hostReads := by
  unfold State.advance; cases d.entered <;> cases d.jumped <;> rfl
@[simp] theorem State.advance_free (s : State) (d : Done) (w : Word) : (s.advance d w).free = s.free := by
  unfold State.advance; cases d.entered <;> cases d.jumped <;> rfl
@[simp] theorem State.advance_cfg (s : State) (d : Done) (w : Word) : (s.advance d w).cfg = s.cfg := by
  unfold State.advance; cases d.entered <;> cases d.jumped <;> rfl

/-! ## Registers and channels by number -/

theorem vector_get_set {α : Type} {k : Nat} (v : Vector α k) (i j : Fin k) (x : α) :
    (v.set i.val x i.isLt).get j = if j = i then x else v.get j := by
  show (v.set i.val x i.isLt)[j.val] = if j = i then x else v[j.val]
  rw [Vector.getElem_set]
  by_cases h : j = i
  · subst h; simp
  · have h' : i.val ≠ j.val := fun e => h (Fin.ext e.symm)
    simp [h, h']

theorem vector_get_ofFn {α : Type} {k : Nat} (f : Fin k → α) (i : Fin k) : (Vector.ofFn f).get i = f i := by
  show (Vector.ofFn f)[i.val] = f i
  simp

theorem vector_get_map {α β : Type} {k : Nat} (f : α → β) (v : Vector α k) (i : Fin k) :
    (v.map f).get i = f (v.get i) := by
  show (v.map f)[i.val] = f v[i.val]
  simp

theorem State.reg_setReg (s : State) (m n : Fin 16) (v : Word) :
    (s.setReg n v).reg m = if m = n then v else s.reg m := vector_get_set s.regs n m v

@[simp] theorem State.reg_setReg_same (s : State) (n : Fin 16) (v : Word) : (s.setReg n v).reg n = v := by
  simp [State.reg_setReg]

theorem State.inPort_setIn (s : State) (i j : Fin 11) (p : InPort) :
    (s.setIn i p).inPort j = if j = i then p else s.inPort j := vector_get_set s.inp i j p

@[simp] theorem State.inPort_setIn_same (s : State) (i : Fin 11) (p : InPort) : (s.setIn i p).inPort i = p := by
  simp [State.inPort_setIn]

theorem State.outPort_setOut (s : State) (i j : Fin 11) (p : OutPort) :
    (s.setOut i p).outPort j = if j = i then p else s.outPort j := vector_get_set s.out i j p

@[simp] theorem State.outPort_setOut_same (s : State) (i : Fin 11) (p : OutPort) : (s.setOut i p).outPort i = p := by
  simp [State.outPort_setOut]

@[simp] theorem State.outPort_mapOut (s : State) (f : Fin 11 → OutPort → OutPort) (i : Fin 11) :
    (s.mapOut f).outPort i = f i (s.outPort i) := vector_get_ofFn _ i

@[simp] theorem State.inPort_rset (s : State) (i : Fin 11) : s.rset.inPort i = (s.inPort i).abort :=
  vector_get_map InPort.abort s.inp i

@[simp] theorem State.outPort_rset (s : State) (i : Fin 11) : s.rset.outPort i = (s.outPort i).abort :=
  vector_get_map OutPort.abort s.out i

end Sys2Proof.Machine
end

