-- ==== Sys2Proof/Laws/Ops.lean ====
section
/-! SUPPORT. What each shared operation does when it ends well: one lemma for each, cited instead of unfolding it. -/

namespace Sys2Proof.Machine

open Sys2Proof

/-- A chain of parts ends well only where both parts do. -/
theorem Flow.bind_eq_ok {α β : Type} {x : Flow α} {f : α → State → Flow β} {b : β} {t : State} :
    x.bind f = .ok b t ↔ ∃ a s, x = .ok a s ∧ f a s = .ok b t := by
  cases x with
  | ok a s =>
    constructor
    · intro h; exact ⟨a, s, rfl, h⟩
    · rintro ⟨a', s', h, hf⟩; cases h; exact hf
  | trap n a s => constructor <;> intro h <;> simp [Flow.bind] at h
  | fault r => constructor <;> intro h <;> simp [Flow.bind] at h
  | refuse r => constructor <;> intro h <;> simp [Flow.bind] at h

/-- The first part ended well: the chain is the second part. -/
theorem Flow.bind_of_ok {α β : Type} {x : Flow α} (f : α → State → Flow β) {a : α} {s : State} (h : x = .ok a s) :
    x.bind f = f a s := by rw [h]; rfl

/-- Every state a part can end in has property `P`. -/
def Flow.Ends {α : Type} (P : State → Prop) (x : Flow α) : Prop :=
  match x with
  | .ok _ s => P s
  | .trap _ _ s => P s
  | .fault _ => True
  | .refuse _ => True

theorem Flow.Ends.bind {α β : Type} {P Q : State → Prop} {x : Flow α} {f : α → State → Flow β}
    (hx : x.Ends P) (hPQ : ∀ s, P s → Q s) (hf : ∀ a s, P s → (f a s).Ends Q) : (x.bind f).Ends Q := by
  cases x with
  | ok a s => exact hf a s hx
  | trap n a s => exact hPQ s hx
  | fault r => trivial
  | refuse r => trivial

theorem Flow.Ends.bind' {α β : Type} {P : State → Prop} {x : Flow α} {f : α → State → Flow β}
    (hx : x.Ends P) (hf : ∀ a s, P s → (f a s).Ends P) : (x.bind f).Ends P := hx.bind (fun _ h => h) hf

theorem Flow.Ends.of_ok {α : Type} {P : State → Prop} {x : Flow α} {a : α} {s : State} (h : x.Ends P)
    (he : x = .ok a s) : P s := by rw [he] at h; exact h

/-! ## The agents' turn -/

/-- The registers that neither an operand's mode nor another agent writes are as they were: pc, PS, the special registers
but TR, the mode and the model's own counters. -/
structure SameControl (s t : State) : Prop where
  pc : t.pc = s.pc
  ps : t.ps = s.ps
  fr : t.fr = s.fr
  cr : t.cr = s.cr
  pi : t.pi = s.pi
  oe : t.oe = s.oe
  ie : t.ie = s.ie
  ueActive : t.ueActive = s.ueActive
  idle : t.idle = s.idle
  events : t.events = s.events
  free : t.free = s.free
  cfg : t.cfg = s.cfg
  pastEnd : t.pastEnd = s.pastEnd

theorem SameControl.refl (s : State) : SameControl s s :=
  ⟨rfl, rfl, rfl, rfl, rfl, rfl, rfl, rfl, rfl, rfl, rfl, rfl, rfl⟩

theorem SameControl.trans {s t u : State} (h : SameControl s t) (g : SameControl t u) : SameControl s u :=
  ⟨g.1.trans h.1, g.2.trans h.2, g.3.trans h.3, g.4.trans h.4, g.5.trans h.5, g.6.trans h.6, g.7.trans h.7,
    g.8.trans h.8, g.9.trans h.9, g.10.trans h.10, g.11.trans h.11, g.12.trans h.12, g.13.trans h.13⟩

/-- What no other agent writes is as it was: the registers of the processor but TR. -/
structure SameProcessor (s t : State) : Prop where
  regs : t.regs = s.regs
  sp : t.sp = s.sp
  control : SameControl s t

theorem SameProcessor.refl (s : State) : SameProcessor s s := ⟨rfl, rfl, .refl s⟩

theorem SameProcessor.trans {s t u : State} (h : SameProcessor s t) (g : SameProcessor t u) : SameProcessor s u :=
  ⟨g.1.trans h.1, g.2.trans h.2, h.3.trans g.3⟩

/-- A step of another agent writes no register of the processor but TR, and names no later turn. -/
theorem agentStep_frame {e : Event} {s t : State} (h : agentStep e s = .next t) : SameProcessor s t ∧ t.bus = s.bus := by
  have same : ∀ u : State,
      u =
        { s with
            tr := u.tr
            inp := u.inp
            out := u.out
            errorFlag := u.errorFlag
            ceLatch := u.ceLatch
            ueLatch := u.ueLatch
            mem := u.mem
            fetch := u.fetch
            hostReads := u.hostReads } → SameProcessor s u ∧ u.bus = s.bus := by
    intro u e
    rw [e]
    exact ⟨⟨rfl, rfl, ⟨rfl, rfl, rfl, rfl, rfl, rfl, rfl, rfl, rfl, rfl, rfl, rfl, rfl⟩⟩, rfl⟩
  apply same
  cases e with
  | cpu => cases h; rfl
  | tick =>
    cases h
    unfold State.tick
    split <;> rfl
  | arrive p x bad =>
    cases h
    unfold State.arrives
    split <;> rfl
  | store p =>
    simp only [agentStep, storeStep] at h
    split at h
    · split at h <;> cases h
      rfl
    · cases h; rfl
  | send p =>
    simp only [agentStep, sendStep] at h
    split at h
    · split at h <;> cases h
      rfl
    · cases h; rfl
  | broadcast =>
    simp only [agentStep, broadcastStep] at h
    split at h
    · cases h; rfl
    · split at h
      · split at h <;> cases h
        rfl
      · cases h; rfl
  | deliver p => cases h; rfl
  | correctedEcc => cases h; rfl
  | uncorrectable a n => cases h; rfl
  | hostWrite k x =>
    simp only [agentStep, hostWriteStep] at h
    split at h
    · cases h; rfl
    · split at h <;> cases h
      rfl
  | hostRead k =>
    simp only [agentStep, hostReadStep] at h
    split at h
    · cases h; rfl
    · split at h <;> cases h
      rfl

theorem runAgents_frame : ∀ {es : List Event} {s t : State}, runAgents es s = .next t →
    SameProcessor s t ∧ t.bus = s.bus
  | [], s, t, h => by cases h; exact ⟨.refl _, rfl⟩
  | e :: es, s, t, h => by
    unfold runAgents at h
    cases he : agentStep e s with
    | next u =>
      rw [he] at h
      have h1 := agentStep_frame he
      have h2 := runAgents_frame h
      exact ⟨h1.1.trans h2.1, h2.2.trans h1.2⟩
    | fault f => rw [he] at h; cases h
    | refused r => rw [he] at h; cases h

/-- The agents' turn writes no register of the processor but TR. -/
theorem letAgents_frame {s t : State} (h : letAgents s = .next t) : SameProcessor s t := by
  unfold letAgents at h
  split at h
  · cases h; exact .refl _
  · obtain ⟨h1, -⟩ := runAgents_frame h
    exact ⟨h1.1, h1.2, ⟨h1.3.1, h1.3.2, h1.3.3, h1.3.4, h1.3.5, h1.3.6, h1.3.7, h1.3.8, h1.3.9, h1.3.10, h1.3.11,
      h1.3.12, h1.3.13⟩⟩

/-- The host's taking of what a read gave changes nothing of the node but what is still to be taken. -/
theorem State.hostTake_frame {s t : State} {k : Nat} {h : Half} (he : s.hostTake k = .ok (t, h)) :
    t = { s with hostReads := t.hostReads } := by
  unfold State.hostTake at he
  split at he
  · cases hd : dmaRead s (2 * k) <;> rw [hd] at he <;> cases he
    rfl
  · split at he
    · cases he; rfl
    · cases hd : dmaRead s (2 * k) <;> rw [hd] at he <;> cases he
      rfl

/-- Where the schedule names no agent within the instruction, nothing moves. -/
theorem letAgents_quiet {s : State} (h : s.bus = []) : letAgents s = .next s := by
  unfold letAgents; rw [h]

theorem agentsTurn_quiet {s : State} (h : s.bus = []) : agentsTurn s = .ok () s := by
  unfold agentsTurn; rw [letAgents_quiet h]

/-- A property that the parts of an instruction which only read keep: the agents' turns keep it, and moves of the
registers in `A` and, where `B` holds, of SP. -/
structure Reads (A : Fin 16 → Prop) (B : Prop) (P : State → Prop) : Prop where
  turn : ∀ s t, letAgents s = .next t → P s → P t
  reg : ∀ s n v, A n → P s → P (s.setReg n v)
  sp : ∀ (s : State) v, B → P s → P { s with sp := v }

variable {A : Fin 16 → Prop} {B : Prop} {P : State → Prop}

theorem Reads.agentsTurn (hP : Reads A B P) {s : State} (h : P s) : (agentsTurn s).Ends P := by
  unfold Machine.agentsTurn
  cases he : letAgents s with
  | next t => exact hP.turn s t he h
  | fault f => trivial
  | refused r => trivial

/-! ## Memory and stack -/

/-- Undisturbed, the atomic reads of an operand give what memory holds there. -/
theorem readAtoms_quiet : ∀ (n a : Nat) {s : State}, s.bus = [] →
    readAtoms (atoms a n) s = .ok (s.mem.readN a n) s
  | 0, a, s, _ => rfl
  | 1, a, s, h => by
    simp only [atoms, readAtoms, Flow.bind_of_ok _ (agentsTurn_quiet h)]
    rfl
  | n + 2, a, s, h => by
    unfold atoms
    split
    · simp only [readAtoms, Flow.bind_of_ok _ (agentsTurn_quiet h), Flow.bind_of_ok _ (readAtoms_quiet n (a + 2) h)]
      rw [Nat.add_comm n 2, Memory.readN_add 2 n]
    · simp only [readAtoms, Flow.bind_of_ok _ (agentsTurn_quiet h),
        Flow.bind_of_ok _ (readAtoms_quiet (n + 1) (a + 1) h)]
      rw [show n + 2 = 1 + (n + 1) by omega, Memory.readN_add 1 (n + 1)]

/-- Undisturbed, the atomic writes of an operand leave it in memory. -/
theorem writeAtoms_quiet : ∀ (n a v : Nat) {s : State}, s.bus = [] →
    writeAtoms (atoms a n) v s = .ok () { s with mem := s.mem.writeN a n v }
  | 0, a, v, s, _ => rfl
  | 1, a, v, s, h => by
    simp only [atoms, writeAtoms, Flow.bind_of_ok _ (agentsTurn_quiet h)]
  | n + 2, a, v, s, h => by
    unfold atoms
    split
    · simp only [writeAtoms, Flow.bind_of_ok _ (agentsTurn_quiet h)]
      rw [writeAtoms_quiet n (a + 2) (v / 256 ^ 2) (s := { s with mem := s.mem.writeN a 2 v }) h, Nat.add_comm n 2,
        Memory.writeN_add 2 n]
    · simp only [writeAtoms, Flow.bind_of_ok _ (agentsTurn_quiet h)]
      rw [writeAtoms_quiet (n + 1) (a + 1) (v / 256 ^ 1) (s := { s with mem := s.mem.writeN a 1 v }) h,
        show n + 2 = 1 + (n + 1) by omega, Memory.writeN_add 1 (n + 1)]

theorem loadN_eq_ok {a : Word} {n v : Nat} {s t : State} (hb : s.bus = []) :
    loadN a n s = .ok v t ↔
      checkAccess s.cfg.memSize a.toNat n = .present ∧ v = s.mem.readN a.toNat n ∧ t = s := by
  unfold loadN
  rw [readAtoms_quiet n a.toNat hb]
  cases h : checkAccess s.cfg.memSize a.toNat n <;> simp [eq_comm]

theorem storeN_eq_ok {a : Word} {n v : Nat} {s t : State} {u : Unit} (hb : s.bus = []) :
    storeN a n v s = .ok u t ↔ checkAccess s.cfg.memSize a.toNat n = .present ∧ t = s.poke a.toNat n v := by
  unfold storeN
  rw [writeAtoms_quiet n a.toNat v (s := s.noteWrite a.toNat n) hb]
  have e : ({ s.noteWrite a.toNat n with mem := (s.noteWrite a.toNat n).mem.writeN a.toNat n v } : State) =
      s.poke a.toNat n v := rfl
  rw [e]
  cases h : checkAccess s.cfg.memSize a.toNat n <;> simp [eq_comm]

theorem pushN_eq_ok {n v : Nat} {s t : State} {u : Unit} (hb : s.bus = []) :
    pushN n v s = .ok u t ↔
      checkAccess s.cfg.memSize (s.sp - BitVec.ofNat 32 n).toNat n = .present ∧
        t = ({ s with sp := s.sp - BitVec.ofNat 32 n }).poke (s.sp - BitVec.ofNat 32 n).toNat n v := by
  unfold pushN; exact storeN_eq_ok hb

theorem popN_eq_ok {n v : Nat} {s t : State} (hb : s.bus = []) :
    popN n s = .ok v t ↔
      checkAccess s.cfg.memSize s.sp.toNat n = .present ∧ v = s.mem.readN s.sp.toNat n ∧
        t = { s with sp := s.sp + BitVec.ofNat 32 n } := by
  unfold popN
  rw [Flow.bind_eq_ok]
  constructor
  · rintro ⟨a, s', h, h'⟩
    obtain ⟨h1, rfl, rfl⟩ := (loadN_eq_ok hb).1 h
    cases h'
    exact ⟨h1, rfl, rfl⟩
  · rintro ⟨h1, rfl, rfl⟩
    exact ⟨_, _, (loadN_eq_ok hb).2 ⟨h1, rfl, rfl⟩, rfl⟩

theorem pop4_eq_ok {v : Word} {s t : State} (hb : s.bus = []) :
    pop4 s = .ok v t ↔
      checkAccess s.cfg.memSize s.sp.toNat 4 = .present ∧ v = BitVec.ofNat 32 (s.mem.readN s.sp.toNat 4) ∧
        t = { s with sp := s.sp + 4 } := by
  unfold pop4
  rw [Flow.bind_eq_ok]
  constructor
  · rintro ⟨a, s', h, h'⟩
    obtain ⟨h1, rfl, rfl⟩ := (popN_eq_ok hb).1 h
    cases h'
    exact ⟨h1, rfl, rfl⟩
  · rintro ⟨h1, rfl, rfl⟩
    exact ⟨_, _, (popN_eq_ok hb).2 ⟨h1, rfl, rfl⟩, rfl⟩

/-- The state after an undisturbed push of a Word. -/
def State.pushed (v : Word) (s : State) : State := { s with sp := s.sp - 4 }.poke (s.sp - 4).toNat 4 v.toNat

theorem push4_eq_ok {v : Word} {s t : State} {u : Unit} (hb : s.bus = []) :
    push4 v s = .ok u t ↔ checkAccess s.cfg.memSize (s.sp - 4).toNat 4 = .present ∧ t = s.pushed v := by
  unfold push4; exact pushN_eq_ok hb

theorem Reads.readAtoms (hP : Reads A B P) : ∀ (l : List (Nat × Nat)) {s : State}, P s → (readAtoms l s).Ends P
  | [], _, h => h
  | (_, _) :: rest, _, h => (hP.agentsTurn h).bind' fun _ _ h => (hP.readAtoms rest h).bind' fun _ _ h => h

theorem Reads.loadN (hP : Reads A B P) {s : State} (a : Word) (n : Nat) (h : P s) : (loadN a n s).Ends P := by
  unfold Machine.loadN; split <;> first | exact hP.readAtoms _ h | exact h | trivial

theorem Reads.popN (hP : Reads A B P) (hB : B) {s : State} (n : Nat) (h : P s) : (popN n s).Ends P :=
  (hP.loadN _ _ h).bind' fun _ _ h => hP.sp _ _ hB h

theorem Reads.pop4 (hP : Reads A B P) (hB : B) {s : State} (h : P s) : (pop4 s).Ends P :=
  (hP.popN hB _ h).bind' fun _ _ h => h

/-! ## Reading and writing a location -/

theorem readLoc_eq_ok_mem {t : OpType} {a : Word} {v : BitVec t.bits} {s s' : State} (hb : s.bus = []) :
    readLoc t (.mem a) s = .ok v s' ↔
      checkAccess s.cfg.memSize a.toNat t.len = .present ∧ v = BitVec.ofNat t.bits (s.mem.readN a.toNat t.len) ∧
        s' = s := by
  unfold readLoc
  simp only
  rw [Flow.bind_eq_ok]
  constructor
  · rintro ⟨x, u, h, h'⟩
    obtain ⟨h1, rfl, rfl⟩ := (loadN_eq_ok hb).1 h
    cases h'
    exact ⟨h1, rfl, rfl⟩
  · rintro ⟨h1, rfl, rfl⟩
    exact ⟨_, _, (loadN_eq_ok hb).2 ⟨h1, rfl, rfl⟩, rfl⟩

theorem Reads.readLoc (hP : Reads A B P) (t : OpType) (l : Loc) {s : State} (h : P s) : (readLoc t l s).Ends P := by
  cases l with
  | mem a => exact (hP.loadN _ _ h).bind' fun _ _ h => h
  | lit k => exact h
  | imm v => exact h
  | reg n => exact h
  | push => exact h

/-- Reading an operand undisturbed leaves the state as it is. -/
theorem readLoc_state {t : OpType} {l : Loc} {v : BitVec t.bits} {s s' : State} (hb : s.bus = [])
    (h : readLoc t l s = .ok v s') : s' = s := by
  cases l with
  | mem a => exact ((readLoc_eq_ok_mem hb).1 h).2.2
  | lit k => cases h; rfl
  | imm x => cases h; rfl
  | reg n => cases h; rfl
  | push => cases h; rfl

/-- What writing a result undisturbed may change: registers, SP, memory and the instruction buffer. -/
theorem writeLoc_frame {t : OpType} {l : Loc} {v : BitVec t.bits} {s s' : State} {u : Unit} (hb : s.bus = [])
    (h : writeLoc t l v s = .ok u s') :
    s' = { s with regs := s'.regs, sp := s'.sp, mem := s'.mem, fetch := s'.fetch } := by
  cases l with
  | mem a => obtain ⟨_, rfl⟩ := (storeN_eq_ok hb).1 h; rfl
  | push => obtain ⟨_, rfl⟩ := (pushN_eq_ok hb).1 h; rfl
  | lit k => cases h; rfl
  | imm x => cases h; rfl
  | reg n => cases h; cases t <;> rfl

/-! ## Evaluating a reference -/

theorem sumAddress_eq_ok {b : Word} {o : Int} {a : Word} {s t : State} (h : sumAddress b o s = .ok a t) :
    t = s ∧ 0 ≤ (b.toNat : Int) + o ∧ (b.toNat : Int) + o < 2 ^ 32 ∧ a = BitVec.ofInt 32 (b.toNat + o) := by
  unfold sumAddress at h
  dsimp only at h
  split at h
  · rename_i hc; cases h; exact ⟨rfl, hc.1, hc.2, rfl⟩
  · cases h

theorem atSum_eq_ok {b : Word} {o : Int} {l : Loc} {s t : State} (h : atSum b o s = .ok l t) :
    t = s ∧ l = .mem (BitVec.ofInt 32 (b.toNat + o)) := by
  unfold atSum at h
  obtain ⟨v, u, h1, h2⟩ := Flow.bind_eq_ok.1 h
  obtain ⟨rfl, _, _, rfl⟩ := sumAddress_eq_ok h1
  cases h2; exact ⟨rfl, rfl⟩

/-- A pointer gives a place in memory. -/
theorem pointer_loc {p : Word} {l : Loc} {s t : State} (h : pointer p s = .ok l t) : ∃ a, l = .mem a := by
  unfold pointer at h
  obtain ⟨v, u, _, h2⟩ := Flow.bind_eq_ok.1 h
  cases h2; exact ⟨_, rfl⟩

theorem throughSum_loc {b : Word} {o : Int} {l : Loc} {s t : State} (h : throughSum b o s = .ok l t) :
    ∃ a, l = .mem a := by
  unfold throughSum at h
  obtain ⟨v, u, _, h2⟩ := Flow.bind_eq_ok.1 h
  exact pointer_loc h2

theorem pointer_eq_ok {p : Word} {l : Loc} {s t : State} (hb : s.bus = []) (h : pointer p s = .ok l t) :
    t = s ∧ l = .mem (BitVec.ofNat 32 (s.mem.readN p.toNat 4)) := by
  unfold pointer at h
  obtain ⟨v, u, h1, h2⟩ := Flow.bind_eq_ok.1 h
  obtain ⟨_, rfl, rfl⟩ := (loadN_eq_ok hb).1 h1
  cases h2; exact ⟨rfl, rfl⟩

theorem Reads.sumAddress (_ : Reads A B P) {s : State} (b : Word) (o : Int) (h : P s) : (sumAddress b o s).Ends P := by
  unfold Machine.sumAddress
  dsimp only
  split <;> exact h

theorem Reads.pointer (hP : Reads A B P) {s : State} (p : Word) (h : P s) : (pointer p s).Ends P :=
  (hP.loadN _ _ h).bind' fun _ _ h => h

theorem Reads.atSum (hP : Reads A B P) {s : State} (b : Word) (o : Int) (h : P s) : (atSum b o s).Ends P :=
  (hP.sumAddress _ _ h).bind' fun _ _ h => h

theorem Reads.throughSum (hP : Reads A B P) {s : State} (b : Word) (o : Int) (h : P s) : (throughSum b o s).Ends P :=
  (hP.sumAddress _ _ h).bind' fun _ _ h => hP.pointer _ h

theorem Reads.missingBytes (_ : Reads A B P) {α : Type} {s : State} (h : P s) : (missingBytes s : Flow α).Ends P := by
  unfold Machine.missingBytes
  split
  · exact h
  · trivial

/-- Evaluating a reference keeps what the agents' turns keep and the moves of its own mode do. -/
theorem Reads.evalRef (hP : Reads A B P) (role : Role) (len : Nat) (sp0 w : Word) (r : Ref) {s : State}
    (hA : ∀ n, Ref.moves n r = true → A n) (hB : r = .stk → role = .src → B) (h : P s) :
    (evalRef role len sp0 w r s).Ends P := by
  cases r with
  | lit k => unfold Machine.evalRef; dsimp only; split <;> exact h
  | imm v => unfold Machine.evalRef; dsimp only; split <;> exact h
  | reg n => exact h
  | ind n => exact h
  | autoSkip n => exact hP.reg _ _ _ (hA n (by simp [Ref.moves])) h
  | autoInc n => exact hP.reg _ _ _ (hA n (by simp [Ref.moves])) h
  | autoIncInd n => exact (hP.pointer _ h).bind' fun _ _ h => hP.reg _ _ _ (hA n (by simp [Ref.moves])) h
  | autoDec n => exact hP.reg _ _ _ (hA n (by simp [Ref.moves])) h
  | offB n o => exact hP.atSum _ _ h
  | offH n o => exact hP.atSum _ _ h
  | offW n o => exact hP.atSum _ _ h
  | offInd n o => exact hP.throughSum _ _ h
  | pcB o => exact hP.atSum _ _ h
  | pcH o => exact hP.atSum _ _ h
  | pcW o => exact hP.atSum _ _ h
  | pcInd o => exact hP.throughSum _ _ h
  | spB o => exact hP.atSum _ _ h
  | spH o => exact hP.atSum _ _ h
  | spW o => exact hP.atSum _ _ h
  | spInd o => exact hP.throughSum _ _ h
  | dirB a => exact h
  | dirH a => exact h
  | dirW a => exact h
  | dirInd a => exact hP.pointer _ h
  | stk =>
    cases role with
    | src => exact (hP.popN (hB rfl rfl) _ h).bind' fun _ _ h => h
    | modify => exact h
    | write => exact h
    | look => exact h
    | address => exact h
  | illegal b => exact h
  | missing n => exact hP.missingBytes h

/-- REFERENCE 2 evaluates as any reference does, its bytes being as fetched (R150 step 4). -/
theorem evalSecond_eq_ok {role : Role} {k₁ k₂ : RefKind} {sp0 : Word} {src des : Ref} {s t : State} {l : Loc} :
    evalSecond role k₁ k₂ sp0 src des s = .ok l t ↔
      s.staleIn (s.pc.toNat + 1 + src.length k₁) (des.length k₂) = none ∧
        evalRef role k₂.len sp0 (afterSpec2 s.pc k₁ src) des s = .ok l t := by
  unfold evalSecond
  split <;> simp_all

theorem Reads.evalSecond (hP : Reads A B P) (role : Role) (k₁ k₂ : RefKind) (sp0 : Word) (src des : Ref) {s : State}
    (hA : ∀ n, Ref.moves n des = true → A n) (hB : des = .stk → role = .src → B) (h : P s) :
    (evalSecond role k₁ k₂ sp0 src des s).Ends P := by
  unfold Machine.evalSecond
  split
  · trivial
  · exact hP.evalRef _ _ _ _ _ hA hB h

/-- Both references evaluate. -/
theorem Reads.evalBoth (hP : Reads A B P) (ts td : OpType) (role : Role) (src des : Ref) {s : State}
    (hs : ∀ n, Ref.moves n src = true → A n) (hd : ∀ n, Ref.moves n des = true → A n) (hB : src = .stk → B)
    (hr : role ≠ .src) (h : P s) : (evalBoth ts td role src des s).Ends P :=
  (hP.evalRef _ _ _ _ _ hs (fun e _ => hB e) h).bind' fun _ _ h =>
    (hP.evalSecond _ _ _ _ _ _ hd (fun _ e => absurd e hr) h).bind' fun _ _ h => h

/-- What reading operands keeps whatever the agents do. -/
theorem reads_control (s : State) : Reads (fun _ => True) True (SameControl s) where
  turn _ _ e h := h.trans (letAgents_frame e).control
  reg _ _ _ _ h := ⟨h.1, h.2, h.3, h.4, h.5, h.6, h.7, h.8, h.9, h.10, h.11, h.12, h.13⟩
  sp _ _ _ h := ⟨h.1, h.2, h.3, h.4, h.5, h.6, h.7, h.8, h.9, h.10, h.11, h.12, h.13⟩

/-- What reading operands undisturbed may change: registers and SP. -/
theorem reads_quiet (s : State) (hb : s.bus = []) :
    Reads (fun _ => True) True (fun t => t = { s with regs := t.regs, sp := t.sp }) where
  turn t u e h := by
    have : t.bus = [] := by rw [h]; exact hb
    rw [letAgents_quiet this] at e
    cases e; exact h
  reg t n v _ h := by rw [h]; rfl
  sp t v _ h := by rw [h]

/-- What evaluating a reference may change: the register its mode moves, and SP where stack mode pops. -/
theorem evalRef_frame {role : Role} {len : Nat} {sp0 w : Word} {r : Ref} {l : Loc} {s t : State} (hb : s.bus = [])
    (h : evalRef role len sp0 w r s = .ok l t) : t = { s with regs := t.regs, sp := t.sp } :=
  ((reads_quiet s hb).evalRef role len sp0 w r (fun _ _ => trivial) (fun _ _ => trivial) rfl).of_ok h

/-- Both references evaluated change nothing but registers and SP. -/
theorem evalBoth_frame {ts td : OpType} {role : Role} {src des : Ref} {s t : State} {l : Loc × Loc} (hb : s.bus = [])
    (hr : role ≠ .src) (h : evalBoth ts td role src des s = .ok l t) : t = { s with regs := t.regs, sp := t.sp } :=
  ((reads_quiet s hb).evalBoth ts td role src des (fun _ _ => trivial) (fun _ _ => trivial) (fun _ => trivial) hr
    rfl).of_ok h

theorem evalRef_control {role : Role} {len : Nat} {sp0 w : Word} {r : Ref} {l : Loc} {s t : State}
    (h : evalRef role len sp0 w r s = .ok l t) : SameControl s t :=
  ((reads_control s).evalRef role len sp0 w r (fun _ _ => trivial) (fun _ _ => trivial) (.refl s)).of_ok h

theorem evalBoth_control {ts td : OpType} {role : Role} {src des : Ref} {s t : State} {l : Loc × Loc}
    (hr : role ≠ .src) (h : evalBoth ts td role src des s = .ok l t) : SameControl s t :=
  ((reads_control s).evalBoth ts td role src des (fun _ _ => trivial) (fun _ _ => trivial) (fun _ => trivial) hr
    (.refl s)).of_ok h

theorem readLoc_control {t : OpType} {l : Loc} {v : BitVec t.bits} {s u : State} (h : readLoc t l s = .ok v u) :
    SameControl s u := ((reads_control s).readLoc t l (.refl s)).of_ok h

/-! ## Taking an interrupt and returning from one -/

/-- The state after an undisturbed entry for number `n` with address `a` pushed (R500). -/
def entryState (n : Nat) (a : Word) (s : State) : State :=
  let t := (s.pushed (s.ps.toWord s.cfg)).pushed a
  t.handling (vectorVA t.mem n) (vectorNPS t.mem n)

theorem checkAccess_present {memSize a n : Nat} (h : a + n ≤ memSize) (hm : a + n ≤ 2 ^ 32) :
    checkAccess memSize a n = .present := by
  unfold checkAccess
  simp only [h, hm, if_true, ite_self]

/-- An undisturbed entry that fits memory. -/
theorem enter_eq_ok {n : Nat} {a : Word} {s t : State} {u : Unit} (hb : s.bus = []) (hn : n < 256) :
    enter n a s = .ok u t ↔ entryFits s n = true ∧ t = entryState n a s := by
  unfold enter
  by_cases hf : entryFits s n = true
  · rw [if_pos hf]
    have hf' := hf
    simp only [entryFits, Bool.and_eq_true, decide_eq_true_eq] at hf'
    obtain ⟨⟨h8, hs⟩, hv⟩ := hf'
    have hsp := s.sp.isLt
    have e4 : (s.sp - 4).toNat = s.sp.toNat - 4 := by
      rw [BitVec.toNat_sub]; simp; omega
    have e8 : (s.sp - 4 - 4).toNat = s.sp.toNat - 8 := by
      rw [BitVec.toNat_sub, e4]; simp; omega
    have p1 := (push4_eq_ok (v := s.ps.toWord s.cfg) (s := s) (u := ()) (t := s.pushed (s.ps.toWord s.cfg)) hb).2
      ⟨checkAccess_present (by omega) (by omega), rfl⟩
    have p2 := (push4_eq_ok (v := a) (s := s.pushed (s.ps.toWord s.cfg)) (u := ())
      (t := (s.pushed (s.ps.toWord s.cfg)).pushed a) hb).2
      ⟨checkAccess_present (by show (s.sp - 4 - 4).toNat + 4 ≤ s.cfg.memSize; omega)
        (by show (s.sp - 4 - 4).toNat + 4 ≤ 2 ^ 32; omega), rfl⟩
    have w1 : (BitVec.ofNat 32 (8 * n)).toNat = 8 * n := by simp; omega
    have w2 : (BitVec.ofNat 32 (8 * n + 4)).toNat = 8 * n + 4 := by simp; omega
    generalize hq : (s.pushed (s.ps.toWord s.cfg)).pushed a = q at p2
    have hqb : q.bus = [] := by rw [← hq]; exact hb
    have hqm : q.cfg.memSize = s.cfg.memSize := by rw [← hq]; rfl
    have v1 := (loadN_eq_ok (a := BitVec.ofNat 32 (8 * n)) (n := 4) (s := q) (v := q.mem.readN (8 * n) 4) (t := q) hqb).2
      ⟨checkAccess_present (by rw [w1]; omega) (by rw [w1]; omega), by rw [w1], rfl⟩
    have v2 := (loadN_eq_ok (a := BitVec.ofNat 32 (8 * n + 4)) (n := 4) (s := q) (v := q.mem.readN (8 * n + 4) 4)
      (t := q) hqb).2 ⟨checkAccess_present (by rw [w2]; omega) (by rw [w2]; omega), by rw [w2], rfl⟩
    have e : entrySequence n a s = .ok () (entryState n a s) := by
      unfold entrySequence
      rw [Flow.bind_of_ok _ p1, Flow.bind_of_ok _ p2, Flow.bind_of_ok _ v1, Flow.bind_of_ok _ v2]
      unfold entryState
      rw [hq]; rfl
    rw [e]
    constructor
    · intro h; cases h; exact ⟨hf, rfl⟩
    · rintro ⟨_, rfl⟩; rfl
  · rw [if_neg hf]
    constructor
    · intro e; cases e
    · rintro ⟨h, _⟩; exact absurd h hf

theorem returnFromInterrupt_eq_ok {v : Word} {s t : State} (hb : s.bus = []) :
    returnFromInterrupt s = .ok v t ↔
      checkAccess s.cfg.memSize s.sp.toNat 4 = .present ∧ checkAccess s.cfg.memSize (s.sp + 4).toNat 4 = .present ∧
        v = BitVec.ofNat 32 (s.mem.readN s.sp.toNat 4) ∧
        t = { s with
                sp := s.sp + 4 + 4
                ps := PsReg.ofWord s.cfg (BitVec.ofNat 32 (s.mem.readN (s.sp + 4).toNat 4))
                ueActive := false } := by
  unfold returnFromInterrupt
  rw [Flow.bind_eq_ok]
  constructor
  · rintro ⟨x, u, h1, h2⟩
    obtain ⟨c1, rfl, rfl⟩ := (pop4_eq_ok hb).1 h1
    obtain ⟨w, u', h3, h4⟩ := Flow.bind_eq_ok.1 h2
    obtain ⟨c2, rfl, rfl⟩ := (pop4_eq_ok (s := { s with sp := s.sp + 4 }) hb).1 h3
    cases h4
    exact ⟨c1, c2, rfl, rfl⟩
  · rintro ⟨c1, c2, rfl, rfl⟩
    refine ⟨_, _, (pop4_eq_ok hb).2 ⟨c1, rfl, rfl⟩, ?_⟩
    rw [Flow.bind_eq_ok]
    exact ⟨_, _, (pop4_eq_ok (s := { s with sp := s.sp + 4 }) hb).2 ⟨c2, rfl, rfl⟩, rfl⟩

/-! ## The end of an instruction -/

/-- A result is stored where writing it ends well. -/
theorem settle_done {td : OpType} {l : Loc} {d : Done} {v : BitVec td.bits} {ps : PsReg} {sig : Signal} {k : Nat}
    {s t : State} {u : Unit} (h : writeLoc td l v (s.drew k) = .ok u t) :
    settle td l d (.done v ps sig k) s = .ok { d with sig := sig } { t with ps := ps } := by
  show (writeLoc td l v (s.drew k)).bind _ = _
  rw [h]; rfl

/-- A suppressed result: the interrupt is raised with PS written. -/
theorem settle_raise {td : OpType} {l : Loc} {d : Done} {n : Nat} {ps : PsReg} {s : State} :
    settle td l d (.raise n ps none) s = .trap n s.pc { s with ps := ps } := rfl

/-- The boundary where nothing is to be taken. -/
theorem boundary_none {d : Done} {w : Word} {s : State} (hc : completion d s = none) (hT : s.ps.eT = false)
    (hu : s.ueLatch = none) (ha : asyncNumber s = none) : boundary d w s = .next s := by
  unfold boundary
  rw [hc]
  simp [hT, takeAsync, hu, ha]

/-- The end of a step before which no agent moves. -/
theorem select_quiet {d : Done} {w : Word} {s : State} (hb : s.bus = []) : select d w s = boundary d w s := by
  unfold select; rw [letAgents_quiet hb]

/-- An instruction that ran to its end with no repeat goes to the boundary. -/
theorem finish_ok {d : Done} {w : Word} {s : State} (hb : s.bus = []) :
    finish none w (.ok d s) = boundary d w (s.advance d w) :=
  (select_quiet (s := s.advance d w) (by rw [State.advance_bus]; exact hb))

theorem finish_trap {n : Nat} {a w : Word} {s : State} {r : Option (Fin 16)} :
    finish r w (.trap n a s) = entryOutcome n (enter n a (s.noteExecuted w)) := rfl

/-- With no repeat in effect a plain instruction is its body. -/
theorem runPlain_once {i : Instr} {body : Word → State → Flow Done} {s : State} (h : s.ps.rep = 0) :
    runPlain i body s = finish none s.pc (body (pcNext i s) s) := by
  unfold runPlain; rw [if_pos h]

/-- The count register of a repeat in effect. -/
def State.counting (s : State) : Option (Fin 16) := if s.ps.rep = 0 then none else some s.ps.repIndex

/-- A repeat lets the instruction run where its Z condition holds and the count is not zero (R401). -/
theorem State.Repeats.goes {s : State} (h : s.Repeats 0) : repeatEnds s = false := by
  obtain ⟨_, hz, hn, hc⟩ := h
  have : (s.reg s.ps.repIndex == 0) = false := by simpa using hc
  unfold repeatEnds zFails
  rw [this]
  simpa using ⟨hz, hn⟩

/-- A plain instruction that is executed is its body, whether or not a repeat is in effect. -/
theorem runPlain_runs {i : Instr} {body : Word → State → Flow Done} {s : State} (h : Runs i s) :
    runPlain i body s = finish s.counting s.pc (body (pcNext i s) s) := by
  unfold runPlain State.counting
  rcases h with h | ⟨h, hn⟩
  · simp only [if_pos h]
  · simp only [if_neg h.1, h.goes, hn, Bool.false_eq_true, if_false]

/-- The end of a plain instruction before which no agent moves, whether or not a repeat is in effect (R402). -/
theorem finish_goesOn {i : Instr} {d : Done} {s t : State} (hb : t.bus = []) (hd : d.next = pcNext i s)
    (hj : d.jumped = false) (he : d.entered = false) (hp : d.post = true) :
    finish s.counting s.pc (.ok d t) = boundary d s.pc (t.goesOn i s) := by
  have e : t.advance d s.pc = t.onward s.pc (pcNext i s) := by
    unfold State.advance State.onward
    simp [hd, hj, he]
  have g : (t.advance d s.pc).postStep s.counting d s.pc = t.goesOn i s := by
    rw [e]
    unfold State.postStep State.counting State.goesOn
    by_cases h : s.ps.rep = 0
    · simp [h]
    · simp only [if_neg h, hp, if_true]
      unfold State.onward wraps
      simp only [Nat.lt_irrefl, decide_false]
      rfl
  show select d s.pc ((t.advance d s.pc).postStep s.counting d s.pc) = _
  rw [g]
  refine select_quiet ?_
  unfold State.goesOn
  split <;> exact hb

/-- A branch that is executed under a repeat is its body in the state after the count went down (R403). -/
theorem runBranch_runs {i : Instr} {body : Word → Word → State → Flow Done} {s : State} (h : s.BranchRuns i) :
    runBranch i body s = finish none s.pc (body (pcNext i s) (s.pc - 2) s.looped) := by
  obtain ⟨h, hn⟩ := h
  unfold runBranch
  rw [if_neg h.1]
  cases ho : s.cfg.repBranch with
  | testThenDecrement =>
    rw [ho, if_pos rfl] at h
    dsimp only
    rw [h.goes, hn]
    rfl
  | decrementThenTest =>
    rw [ho, if_neg (by decide)] at h
    have hd : (s.countDown s.ps.repIndex).Repeats 0 := by
      refine ⟨h.1, h.2.1, h.2.2.1, ?_⟩
      show (s.setReg s.ps.repIndex (s.reg s.ps.repIndex - 1)).reg s.ps.repIndex ≠ 0
      rw [State.reg_setReg, if_pos rfl]
      intro e
      exact h.2.2.2 (sub_eq_zero.1 e)
    dsimp only
    rw [hd.goes, hn]
    rfl

/-- With no repeat in effect a branch is its body. -/
theorem runBranch_once {i : Instr} {body : Word → Word → State → Flow Done} {s : State} (h : s.ps.rep = 0) :
    runBranch i body s = finish none s.pc (body (pcNext i s) (pcNext i s) s) := by
  unfold runBranch; rw [if_pos h]

end Sys2Proof.Machine
end

