-- ==== Sys2Proof/Laws/Keeps.lean ====
section
/-! SUPPORT. What every instruction keeps: a property of states that each elementary update keeps is kept by every
part of the instruction cycle, so that an invariant needs no case analysis of the machine. -/

namespace Sys2Proof.Machine

open Sys2Proof

/-- An outcome whose next state, if there is one, has property `P`. -/
def NextHas (P : State → Prop) (o : Host.Outcome State Fault Refusal) : Prop :=
  match o with
  | .next s => P s
  | .fault _ => True
  | .refused _ => True

/-- A property that every elementary update of an ordinary instruction and of an entry keeps, as long as only
registers in `A` are written. -/
structure Stable (A : Fin 16 → Prop) (P : State → Prop) : Prop extends Reads A True P where
  pc : ∀ (s : State) v b, P s → P { s with pc := v, pastEnd := b }
  ps : ∀ (s : State) v, P s → P { s with ps := v }
  fr : ∀ (s : State) v, P s → P { s with fr := v }
  mem : ∀ (s : State) a n v, P s → P { s with mem := s.mem.writeN a n v }
  fetch : ∀ (s : State) v, P s → P { s with fetch := v }
  idle : ∀ (s : State) v, P s → P { s with idle := v }
  free : ∀ (s : State) k, P s → P (s.drew k)
  ceLatch : ∀ (s : State), P s → P { s with ceLatch := false }
  ueDone : ∀ (s : State), P s → P { s with ueActive := false }
  scramble : ∀ (s : State) a n, s.ueLatch = some (a, n) → P s → P (s.scramble a n)

variable {A : Fin 16 → Prop} {P : State → Prop}

theorem Stable.poke (hP : Stable A P) {s : State} (a n v : Nat) (h : P s) : P (s.poke a n v) :=
  hP.fetch _ _ (hP.mem _ a n v h)

theorem Stable.noteExecuted (hP : Stable A P) {s : State} (w : Word) (h : P s) : P (s.noteExecuted w) := hP.fetch _ _ h

theorem Stable.noteTransfer (hP : Stable A P) {s : State} (w v : Word) (h : P s) : P (s.noteTransfer w v) :=
  hP.fetch _ _ h

theorem Stable.setFr (hP : Stable A P) {s : State} (f : FrFields) (h : P s) : P (s.setFr f) :=
  hP.free _ 1 (hP.fr _ _ h)

theorem Stable.clearRep (hP : Stable A P) {s : State} (h : P s) : P s.clearRep := hP.ps _ _ h

theorem Stable.countDown (hP : Stable A P) {s : State} (r : Fin 16) (hr : A r) (h : P s) : P (s.countDown r) :=
  hP.reg _ _ _ hr h

/-! ## Memory and stack -/

theorem Stable.writeAtoms (hP : Stable A P) : ∀ (l : List (Nat × Nat)) (v : Nat) {s : State}, P s →
    (writeAtoms l v s).Ends P
  | [], _, _, h => h
  | (_, _) :: rest, _, _, h => (hP.agentsTurn h).bind' fun _ _ h => hP.writeAtoms rest _ (hP.mem _ _ _ _ h)

theorem Stable.storeN (hP : Stable A P) {s : State} (a : Word) (n v : Nat) (h : P s) : (storeN a n v s).Ends P := by
  unfold Machine.storeN; split <;> first | exact hP.writeAtoms _ _ (hP.fetch _ _ h) | exact h | trivial

theorem Stable.pushN (hP : Stable A P) {s : State} (n v : Nat) (h : P s) : (pushN n v s).Ends P :=
  hP.storeN _ _ _ (hP.sp _ _ trivial h)

theorem Stable.popN (hP : Stable A P) {s : State} (n : Nat) (h : P s) : (popN n s).Ends P :=
  hP.toReads.popN trivial n h

theorem Stable.push4 (hP : Stable A P) {s : State} (v : Word) (h : P s) : (push4 v s).Ends P := hP.pushN _ _ h

theorem Stable.pop4 (hP : Stable A P) {s : State} (h : P s) : (pop4 s).Ends P := hP.toReads.pop4 trivial h

/-! ## Entries -/

theorem Stable.handling (hP : Stable A P) {s : State} (va nps : Word) (h : P s) : P (s.handling va nps) := by
  unfold State.handling
  exact hP.noteTransfer _ _ (hP.idle _ false (hP.ps _ (PsReg.ofWord s.cfg nps) (hP.pc _ va false h)))

theorem Stable.enter (hP : Stable A P) {s : State} (n : Nat) (a : Word) (h : P s) : (enter n a s).Ends P := by
  unfold Machine.enter
  split
  · exact (hP.push4 _ h).bind' fun _ _ h => (hP.push4 _ h).bind' fun _ _ h => (hP.loadN _ _ h).bind' fun _ _ h =>
      (hP.loadN _ _ h).bind' fun _ _ h => hP.handling _ _ h
  · trivial

theorem Stable.entryOutcome (hP : Stable A P) {s : State} (n m : Nat) (a : Word) (h : P s) :
    NextHas P (Machine.entryOutcome m (Machine.enter n a s)) := by
  have he := hP.enter n a h
  cases hx : Machine.enter n a s with
  | ok u t => exact he.of_ok hx
  | trap k b t => trivial
  | fault f => trivial
  | refuse r => trivial

theorem Stable.takeAsync (hP : Stable A P) {s : State} (h : P s) : NextHas P (takeAsync s) := by
  unfold Machine.takeAsync
  split
  · exact hP.entryOutcome _ _ _ (hP.scramble _ _ _ (by assumption) h)
  · split
    · refine hP.entryOutcome _ _ _ ?_
      split
      · exact hP.ceLatch _ h
      · exact h
    · exact h

/-! ## The cycle -/

theorem Stable.boundary (hP : Stable A P) {s : State} (d : Done) (w : Word) (h : P s) : NextHas P (boundary d w s) := by
  unfold Machine.boundary
  split
  · exact hP.entryOutcome _ _ _ (hP.setFr _ h)
  · exact hP.entryOutcome _ _ _ h
  · split
    · exact hP.entryOutcome _ _ _ h
    · exact hP.takeAsync h

theorem Stable.select (hP : Stable A P) {s : State} (d : Done) (w : Word) (h : P s) : NextHas P (select d w s) := by
  unfold Machine.select
  cases he : letAgents s with
  | next t => exact hP.boundary d w (hP.turn s t he h)
  | fault f => trivial
  | refused r => trivial

theorem Stable.advance (hP : Stable A P) {s : State} (d : Done) (w : Word) (h : P s) : P (s.advance d w) := by
  unfold State.advance
  dsimp only
  split
  · exact hP.pc _ _ _ h
  · split
    · exact hP.noteTransfer _ _ (hP.noteExecuted _ (hP.pc _ _ _ h))
    · exact hP.noteExecuted _ (hP.pc _ _ _ h)

theorem Stable.postStep (hP : Stable A P) {s : State} (r : Option (Fin 16)) (d : Done) (w : Word) (hr : ∀ n, r = some n → A n)
    (h : P s) : P (s.postStep r d w) := by
  unfold State.postStep
  split
  · split
    · exact hP.pc _ _ _ (hP.countDown _ (hr _ rfl) h)
    · exact h
  · exact h

theorem Stable.finish (hP : Stable A P) (r : Option (Fin 16)) (w : Word) {x : Flow Done} (hr : ∀ n, r = some n → A n)
    (h : x.Ends P) : NextHas P (finish r w x) := by
  cases x with
  | ok d s => exact hP.select _ _ (hP.postStep _ _ _ hr (hP.advance _ _ h))
  | trap n a s => exact hP.entryOutcome _ _ _ (hP.noteExecuted _ h)
  | fault f => trivial
  | refuse f => trivial

theorem Stable.fetchPast (hP : Stable A P) {s : State} (h : P s) : NextHas P (fetchPast s) := by
  have hm := hP.missingBytes (α := Unit) h
  unfold Machine.fetchPast
  cases hx : (missingBytes s : Flow Unit) with
  | ok a t => exact hm.of_ok hx
  | trap n a t => rw [hx] at hm; exact hP.entryOutcome _ _ _ hm
  | fault f => trivial
  | refuse r => trivial

theorem Stable.operandError (_ : Stable A P) {α : Type} {s : State} (w : Word) (h : P s) :
    (operandError w s : Flow α).Ends P := h

theorem Stable.passOver (hP : Stable A P) : ∀ (l : List (RefKind × Ref)) (w : Word) {s : State}, P s →
    (passOver l w s).Ends P
  | [], _, _, h => h
  | (k, r) :: rest, w, s, h => by
    unfold Machine.passOver
    split
    · exact hP.missingBytes h
    · split
      · exact hP.operandError _ h
      · exact hP.passOver rest _ h

theorem Stable.skip (hP : Stable A P) {s : State} (i : Instr) (w : Word) (h : P s) : NextHas P (skip i w s) :=
  hP.finish _ _ (fun _ e => by cases e) ((hP.passOver _ _ h).bind' fun _ _ h => hP.clearRep h)

/-- The count register of a repeat in effect may be written. -/
def CountsIn (A : Fin 16 → Prop) (s : State) : Prop := s.ps.rep ≠ 0 → A s.ps.repIndex

theorem Stable.runPlain (hP : Stable A P) {i : Instr} {body : Word → State → Flow Done} {s : State}
    (hc : CountsIn A s) (h : P s) (hb : ∀ w, (body w s).Ends P) : NextHas P (runPlain i body s) := by
  unfold Machine.runPlain
  split
  · exact hP.finish _ _ (fun _ e => by cases e) (hb _)
  · rename_i hr
    split
    · exact hP.skip _ _ h
    · split
      · trivial
      · exact hP.finish _ _ (fun _ e => by cases e; exact hc hr) (hb _)

theorem Stable.runBranch (hP : Stable A P) {i : Instr} {body : Word → Word → State → Flow Done} {s : State}
    (hc : CountsIn A s) (h : P s) (hb : ∀ w r t, P t → (body w r t).Ends P) : NextHas P (runBranch i body s) := by
  unfold Machine.runBranch
  split
  · exact hP.finish _ _ (fun _ e => by cases e) (hb _ _ _ h)
  · rename_i hr
    have h' := hP.countDown s.ps.repIndex (hc hr) h
    split
    · split
      · exact hP.skip _ _ h
      · split
        · trivial
        · exact hP.finish _ _ (fun _ e => by cases e) (hb _ _ _ (hP.clearRep h'))
    · dsimp only
      split
      · exact hP.skip _ _ h'
      · split
        · trivial
        · exact hP.finish _ _ (fun _ e => by cases e) (hb _ _ _ (hP.clearRep h'))

/-! ## Operands -/

theorem Stable.evalRef (hP : Stable A P) (role : Role) (len : Nat) (sp0 w : Word) (r : Ref) {s : State}
    (hA : ∀ n, Ref.moves n r = true → A n) (h : P s) : (evalRef role len sp0 w r s).Ends P :=
  hP.toReads.evalRef role len sp0 w r hA (fun _ _ => trivial) h

theorem Stable.evalSecond (hP : Stable A P) (role : Role) (k₁ k₂ : RefKind) (sp0 : Word) (src des : Ref) {s : State}
    (hA : ∀ n, Ref.moves n des = true → A n) (h : P s) : (evalSecond role k₁ k₂ sp0 src des s).Ends P :=
  hP.toReads.evalSecond role k₁ k₂ sp0 src des hA (fun _ _ => trivial) h

/-- A reference evaluates to a register only where it is that register. -/
theorem evalRef_reg {role : Role} {len : Nat} {sp0 w : Word} {r : Ref} {n : Fin 16} {s t : State}
    (h : Machine.evalRef role len sp0 w r s = .ok (.reg n) t) : r = .reg n := by
  cases r with
  | reg m => cases h; rfl
  | lit k => unfold Machine.evalRef at h; dsimp only at h; split at h <;> cases h
  | imm v => unfold Machine.evalRef at h; dsimp only at h; split at h <;> cases h
  | ind m => cases h
  | autoSkip m => cases h
  | autoInc m => cases h
  | autoIncInd m =>
    obtain ⟨l', u, h1, h2⟩ := Flow.bind_eq_ok.1 h
    obtain ⟨_, rfl⟩ := pointer_loc h1
    cases h2
  | autoDec m => cases h
  | offB m o => cases (atSum_eq_ok h).2
  | offH m o => cases (atSum_eq_ok h).2
  | offW m o => cases (atSum_eq_ok h).2
  | offInd m o => obtain ⟨_, e⟩ := throughSum_loc h; cases e
  | pcB o => cases (atSum_eq_ok h).2
  | pcH o => cases (atSum_eq_ok h).2
  | pcW o => cases (atSum_eq_ok h).2
  | pcInd o => obtain ⟨_, e⟩ := throughSum_loc h; cases e
  | spB o => cases (atSum_eq_ok h).2
  | spH o => cases (atSum_eq_ok h).2
  | spW o => cases (atSum_eq_ok h).2
  | spInd o => obtain ⟨_, e⟩ := throughSum_loc h; cases e
  | dirB a => cases h
  | dirH a => cases h
  | dirW a => cases h
  | dirInd a => obtain ⟨_, e⟩ := pointer_loc h; cases e
  | stk =>
    cases role with
    | src => obtain ⟨l', u, _, h2⟩ := Flow.bind_eq_ok.1 h; cases h2
    | modify => cases h
    | write => cases h
    | look => cases h
    | address => cases h
  | illegal b => cases h
  | missing n => simp only [Machine.evalRef, Machine.missingBytes] at h; split at h <;> cases h

theorem Stable.writeReg (hP : Stable A P) (t : OpType) (n : Fin 16) (v : BitVec t.bits) {s : State}
    (hA : ∀ m, Ref.stores (.dest t) m (.reg n) = true → A m) (h : P s) : P (writeReg t n v s) := by
  have hn : A n := hA n (by simp [Ref.stores])
  cases t with
  | l => exact hP.reg _ _ _ (hA (n + 1) (by simp [Ref.stores])) (hP.reg _ _ _ hn h)
  | b => exact hP.reg _ _ _ hn h
  | h => exact hP.reg _ _ _ hn h
  | w => exact hP.reg _ _ _ hn h
  | r => exact hP.reg _ _ _ hn h

theorem Stable.writeLoc (hP : Stable A P) (t : OpType) (l : Loc) (v : BitVec t.bits) {s : State}
    (hA : ∀ n, l = .reg n → ∀ m, Ref.stores (.dest t) m (.reg n) = true → A m) (h : P s) :
    (writeLoc t l v s).Ends P := by
  cases l with
  | mem a => exact hP.storeN _ _ _ h
  | lit k => exact h
  | imm v => exact h
  | reg n => exact hP.writeReg t n v (hA n rfl) h
  | push => exact hP.pushN _ _ h

/-- The registers that the references of a list may write are in `A`. -/
def Allows (A : Fin 16 → Prop) (refs : List (RefKind × Ref)) : Prop :=
  ∀ p ∈ refs, ∀ n, Ref.moves n p.2 = true ∨ Ref.stores p.1 n p.2 = true → A n

theorem Allows.moves {refs : List (RefKind × Ref)} (hA : Allows A refs) {k : RefKind} {r : Ref} (hm : (k, r) ∈ refs)
    (n : Fin 16) (h : Ref.moves n r = true) : A n := hA (k, r) hm n (.inl h)

theorem Allows.stores {refs : List (RefKind × Ref)} (hA : Allows A refs) {k : RefKind} {r : Ref} (hm : (k, r) ∈ refs)
    (n : Fin 16) (h : Ref.stores k n r = true) : A n := hA (k, r) hm n (.inr h)

/-- Storing at what a reference evaluates to writes only registers the reference may write. -/
theorem Allows.loc {refs : List (RefKind × Ref)} (hA : Allows A refs) {t : OpType} {r : Ref}
    (hm : (RefKind.dest t, r) ∈ refs) {role : Role} {len : Nat} {sp0 w : Word} {l : Loc} {s u : State}
    (he : Machine.evalRef role len sp0 w r s = .ok l u) (n : Fin 16) (hl : l = .reg n) (m : Fin 16)
    (h : Ref.stores (.dest t) m (.reg n) = true) : A m := by
  subst hl
  rw [← evalRef_reg he] at h
  exact hA.stores hm m h

/-- The second part may use what the first one ended with. -/
theorem Flow.Ends.bindEq {α β : Type} {x : Flow α} {f : α → State → Flow β} (hx : x.Ends P)
    (hf : ∀ a s, x = .ok a s → P s → (f a s).Ends P) : (x.bind f).Ends P := by
  cases x with
  | ok a s => exact hf a s rfl hx
  | trap n a s => exact hx
  | fault r => trivial
  | refuse r => trivial

theorem Stable.evalTarget (hP : Stable A P) (sp0 w : Word) (r : Ref) {s : State}
    (hA : ∀ n, Ref.moves n r = true → A n) (h : P s) : (evalTarget sp0 w r s).Ends P :=
  (hP.evalRef _ _ _ _ _ hA h).bind' fun _ _ h => h

theorem Stable.evalBoth (hP : Stable A P) (ts td : OpType) (role : Role) (src des : Ref) {s : State}
    (hs : ∀ n, Ref.moves n src = true → A n) (hd : ∀ n, Ref.moves n des = true → A n) (h : P s) :
    (evalBoth ts td role src des s).Ends P :=
  (hP.evalRef _ _ _ _ _ hs h).bind' fun _ _ h => (hP.evalSecond _ _ _ _ _ _ hd h).bind' fun _ _ h => h

/-- The second location is one the second reference gives. -/
theorem evalBoth_second {ts td : OpType} {role : Role} {src des : Ref} {s t : State} {l : Loc × Loc}
    (h : Machine.evalBoth ts td role src des s = .ok l t) :
    ∃ sp0 w u, Machine.evalRef role td.len sp0 w des u = .ok l.2 t := by
  unfold Machine.evalBoth at h
  obtain ⟨l₁, s₁, _, h2⟩ := Flow.bind_eq_ok.1 h
  obtain ⟨l₂, s₂, h3, h4⟩ := Flow.bind_eq_ok.1 h2
  cases h4
  exact ⟨_, _, _, (evalSecond_eq_ok.1 h3).2⟩

/-! ## Instruction bodies -/

theorem Stable.settle (hP : Stable A P) (td : OpType) (l : Loc) (d : Done) (c : Calc td.bits) {s : State}
    (hA : ∀ n, l = .reg n → ∀ m, Ref.stores (.dest td) m (.reg n) = true → A m) (h : P s) :
    (settle td l d c s).Ends P := by
  cases c with
  | done v ps sig draws => exact (hP.writeLoc td l v hA (hP.free _ _ h)).bind' fun _ _ h => hP.ps _ _ h
  | raise n ps fr =>
    cases fr with
    | none => exact hP.ps _ _ h
    | some f => exact hP.setFr f (hP.ps _ _ h)

theorem Stable.modifyBody (hP : Stable A P) {ts td : OpType} {k : RefKind}
    {op : BitVec ts.bits → BitVec td.bits → Calc td.bits} {src des : Ref}
    (hA : Allows A [(k, src), (.dest td, des)]) (w : Word) {s : State} (h : P s) :
    (modifyBody ts td op src des w s).Ends P :=
  (hP.evalBoth _ _ _ _ _ (hA.moves (k := k) (by simp)) (hA.moves (k := .dest td) (by simp)) h).bindEq
    fun l _ he h => by
      obtain ⟨_, _, _, hl⟩ := evalBoth_second he
      exact (hP.readLoc _ _ h).bind' fun _ _ h => (hP.readLoc _ _ h).bind' fun _ _ h =>
        hP.settle _ _ _ _ (hA.loc (by simp) hl) h

theorem Stable.writeBody (hP : Stable A P) {ts td : OpType} {k : RefKind} {op : BitVec ts.bits → Calc td.bits}
    {src des : Ref} (hA : Allows A [(k, src), (.dest td, des)]) (w : Word) {s : State} (h : P s) :
    (writeBody ts td op src des w s).Ends P :=
  (hP.evalBoth _ _ _ _ _ (hA.moves (k := k) (by simp)) (hA.moves (k := .dest td) (by simp)) h).bindEq
    fun l _ he h => by
      obtain ⟨_, _, _, hl⟩ := evalBoth_second he
      exact (hP.readLoc _ _ h).bind' fun _ _ h => hP.settle _ _ _ _ (hA.loc (by simp) hl) h

theorem Stable.lookBody (hP : Stable A P) {ts td : OpType} {k₁ k₂ : RefKind}
    {act : BitVec ts.bits → BitVec td.bits → Done → State → Flow Done} {src des : Ref}
    (hA : Allows A [(k₁, src), (k₂, des)]) (w : Word) {s : State} (h : P s)
    (ha : ∀ a b d t, P t → (act a b d t).Ends P) : (lookBody ts td act src des w s).Ends P :=
  (hP.evalBoth _ _ _ _ _ (hA.moves (k := k₁) (by simp)) (hA.moves (k := k₂) (by simp)) h).bind' fun _ _ h =>
    (hP.readLoc _ _ h).bind' fun _ _ h => (hP.readLoc _ _ h).bind' fun _ _ h => ha _ _ _ _ h

theorem Stable.flagsBody (hP : Stable A P) {t : OpType} {k₁ k₂ : RefKind}
    {flags : BitVec t.bits → BitVec t.bits → PsReg} {src des : Ref} (hA : Allows A [(k₁, src), (k₂, des)]) (w : Word)
    {s : State} (h : P s) : (flagsBody t flags src des w s).Ends P :=
  hP.lookBody hA _ h fun _ _ _ _ h => hP.ps _ _ h

theorem Stable.readBody (hP : Stable A P) {t : OpType} {k : RefKind} {act : BitVec t.bits → State → Flow Done}
    {src : Ref} (hA : Allows A [(k, src)]) {s : State} (h : P s) (ha : ∀ v t, P t → (act v t).Ends P) :
    (readBody t act src s).Ends P :=
  (hP.evalRef _ _ _ _ _ (hA.moves (k := k) (by simp)) h).bind' fun _ _ h =>
    (hP.readLoc _ _ h).bind' fun _ _ h => ha _ _ h

theorem Stable.branchBody (hP : Stable A P) {k : RefKind} (sg : Bool) (taken : PsReg → Bool) {src : Ref}
    (hA : Allows A [(k, src)]) (w : Word) {s : State} (h : P s) : (branchBody sg taken src w s).Ends P := by
  refine (hP.evalTarget _ _ _ (hA.moves (k := k) (by simp)) h).bind' fun _ _ h => ?_
  dsimp only
  split
  · exact hP.ps _ _ h
  · split <;> exact h

theorem Stable.callBody (hP : Stable A P) {k : RefKind} {src : Ref} (hA : Allows A [(k, src)]) (r : Word) {s : State}
    (h : P s) : (callBody src r s).Ends P :=
  (hP.evalTarget _ _ _ (hA.moves (k := k) (by simp)) h).bind' fun _ _ h => (hP.push4 _ h).bind' fun _ _ h =>
    hP.clearRep h

theorem Stable.retBody (hP : Stable A P) {s : State} (h : P s) : (retBody s).Ends P :=
  (hP.pop4 h).bind' fun _ _ h => hP.clearRep h

theorem Stable.retpBody (hP : Stable A P) {k : RefKind} {src : Ref} (hA : Allows A [(k, src)]) {s : State} (h : P s) :
    (retpBody src s).Ends P :=
  hP.readBody hA h fun _ _ h => (hP.pop4 h).bind' fun _ _ h => hP.clearRep (hP.sp _ _ trivial h)

theorem Stable.movaBody (hP : Stable A P) {k : RefKind} {src des : Ref}
    (hA : Allows A [(k, src), (.dest .w, des)]) (w : Word) {s : State} (h : P s) : (movaBody src des w s).Ends P :=
  (hP.evalTarget _ _ _ (hA.moves (k := k) (by simp)) h).bind' fun _ _ h =>
    (hP.evalSecond _ _ _ _ _ _ (hA.moves (k := .dest .w) (by simp)) h).bindEq fun _ _ he h =>
      hP.settle _ _ _ _ (hA.loc (by simp) (evalSecond_eq_ok.1 he).2) h

theorem Stable.repBody (hP : Stable A P) (m : BitVec 2) (src : Ref) (w : Word) {s : State} (h : P s) :
    (repBody m src w s).Ends P := by
  cases src
  case reg n => exact hP.ps _ _ h
  case missing n => exact hP.missingBytes h
  all_goals exact h

theorem Stable.softwareInterrupt (hP : Stable A P) (n : Nat) (w : Word) {s : State} (h : P s) :
    (softwareInterrupt n w s).Ends P := Flow.Ends.bind' (hP.enter n w (hP.noteExecuted _ h)) fun _ _ h => h

theorem Stable.returnFromInterrupt (hP : Stable A P) {s : State} (h : P s) : (returnFromInterrupt s).Ends P :=
  (hP.pop4 h).bind' fun _ _ h => (hP.pop4 h).bind' fun _ _ h => hP.ps _ _ (hP.ueDone _ h)

theorem Stable.stprBody (hP : Stable A P) {k : RefKind} {src des : Ref}
    (hA : Allows A [(k, src), (.dest .w, des)]) (w : Word) {s : State} (h : P s) : (stprBody src des w s).Ends P :=
  (hP.evalBoth _ _ _ _ _ (hA.moves (k := k) (by simp)) (hA.moves (k := .dest .w) (by simp)) h).bindEq
    fun l _ he h => by
      obtain ⟨_, _, _, hl⟩ := evalBoth_second he
      refine (hP.readLoc _ _ h).bind' fun n t h => ?_
      split
      · exact hP.settle _ _ _ _ (hA.loc (by simp) hl) h
      · trivial

/-! ## One lemma per meaning -/

theorem Stable.movb (hP : Stable A P) (src des : Ref) {s : State} (hA : Allows A (Instr.movb src des).parts.refs)
    (hc : CountsIn A s) (h : P s) : NextHas P (execMovb src des s) := by
  unfold execMovb; exact hP.runPlain hc h fun _ => hP.writeBody hA _ h

theorem Stable.sftb (hP : Stable A P) (src des : Ref) {s : State} (hA : Allows A (Instr.sftb src des).parts.refs)
    (hc : CountsIn A s) (h : P s) : NextHas P (execSftb src des s) := by
  unfold execSftb; exact hP.runPlain hc h fun _ => hP.modifyBody hA _ h

theorem Stable.movh (hP : Stable A P) (src des : Ref) {s : State} (hA : Allows A (Instr.movh src des).parts.refs)
    (hc : CountsIn A s) (h : P s) : NextHas P (execMovh src des s) := by
  unfold execMovh; exact hP.runPlain hc h fun _ => hP.writeBody hA _ h

theorem Stable.sfth (hP : Stable A P) (src des : Ref) {s : State} (hA : Allows A (Instr.sfth src des).parts.refs)
    (hc : CountsIn A s) (h : P s) : NextHas P (execSfth src des s) := by
  unfold execSfth; exact hP.runPlain hc h fun _ => hP.modifyBody hA _ h

theorem Stable.movw (hP : Stable A P) (src des : Ref) {s : State} (hA : Allows A (Instr.movw src des).parts.refs)
    (hc : CountsIn A s) (h : P s) : NextHas P (execMovw src des s) := by
  unfold execMovw; exact hP.runPlain hc h fun _ => hP.writeBody hA _ h

theorem Stable.sftw (hP : Stable A P) (src des : Ref) {s : State} (hA : Allows A (Instr.sftw src des).parts.refs)
    (hc : CountsIn A s) (h : P s) : NextHas P (execSftw src des s) := by
  unfold execSftw; exact hP.runPlain hc h fun _ => hP.modifyBody hA _ h

theorem Stable.movr (hP : Stable A P) (src des : Ref) {s : State} (hA : Allows A (Instr.movr src des).parts.refs)
    (hc : CountsIn A s) (h : P s) : NextHas P (execMovr src des s) := by
  unfold execMovr; exact hP.runPlain hc h fun _ => hP.writeBody hA _ h

theorem Stable.cvbr (hP : Stable A P) (src des : Ref) {s : State} (hA : Allows A (Instr.cvbr src des).parts.refs)
    (hc : CountsIn A s) (h : P s) : NextHas P (execCvbr src des s) := by
  unfold execCvbr; exact hP.runPlain hc h fun _ => hP.writeBody hA _ h

theorem Stable.movl (hP : Stable A P) (src des : Ref) {s : State} (hA : Allows A (Instr.movl src des).parts.refs)
    (hc : CountsIn A s) (h : P s) : NextHas P (execMovl src des s) := by
  unfold execMovl; exact hP.runPlain hc h fun _ => hP.writeBody hA _ h

theorem Stable.nop (hP : Stable A P) {s : State} 
    (hc : CountsIn A s) (h : P s) : NextHas P (execNop s) := by
  unfold execNop; exact hP.runPlain hc h fun _ => h

theorem Stable.bg (hP : Stable A P) (src : Ref) {s : State} (hA : Allows A (Instr.bg src).parts.refs)
    (hc : CountsIn A s) (h : P s) : NextHas P (execBg src s) := by
  unfold execBg; exact hP.runBranch hc h fun _ _ _ h => hP.branchBody _ _ hA _ h

theorem Stable.negb (hP : Stable A P) (src des : Ref) {s : State} (hA : Allows A (Instr.negb src des).parts.refs)
    (hc : CountsIn A s) (h : P s) : NextHas P (execNegb src des s) := by
  unfold execNegb; exact hP.runPlain hc h fun _ => hP.writeBody hA _ h

theorem Stable.sfab (hP : Stable A P) (src des : Ref) {s : State} (hA : Allows A (Instr.sfab src des).parts.refs)
    (hc : CountsIn A s) (h : P s) : NextHas P (execSfab src des s) := by
  unfold execSfab; exact hP.runPlain hc h fun _ => hP.modifyBody hA _ h

theorem Stable.negh (hP : Stable A P) (src des : Ref) {s : State} (hA : Allows A (Instr.negh src des).parts.refs)
    (hc : CountsIn A s) (h : P s) : NextHas P (execNegh src des s) := by
  unfold execNegh; exact hP.runPlain hc h fun _ => hP.writeBody hA _ h

theorem Stable.sfah (hP : Stable A P) (src des : Ref) {s : State} (hA : Allows A (Instr.sfah src des).parts.refs)
    (hc : CountsIn A s) (h : P s) : NextHas P (execSfah src des s) := by
  unfold execSfah; exact hP.runPlain hc h fun _ => hP.modifyBody hA _ h

theorem Stable.negw (hP : Stable A P) (src des : Ref) {s : State} (hA : Allows A (Instr.negw src des).parts.refs)
    (hc : CountsIn A s) (h : P s) : NextHas P (execNegw src des s) := by
  unfold execNegw; exact hP.runPlain hc h fun _ => hP.writeBody hA _ h

theorem Stable.sfaw (hP : Stable A P) (src des : Ref) {s : State} (hA : Allows A (Instr.sfaw src des).parts.refs)
    (hc : CountsIn A s) (h : P s) : NextHas P (execSfaw src des s) := by
  unfold execSfaw; exact hP.runPlain hc h fun _ => hP.modifyBody hA _ h

theorem Stable.negr (hP : Stable A P) (src des : Ref) {s : State} (hA : Allows A (Instr.negr src des).parts.refs)
    (hc : CountsIn A s) (h : P s) : NextHas P (execNegr src des s) := by
  unfold execNegr; exact hP.runPlain hc h fun _ => hP.writeBody hA _ h

theorem Stable.cvhr (hP : Stable A P) (src des : Ref) {s : State} (hA : Allows A (Instr.cvhr src des).parts.refs)
    (hc : CountsIn A s) (h : P s) : NextHas P (execCvhr src des s) := by
  unfold execCvhr; exact hP.runPlain hc h fun _ => hP.writeBody hA _ h

theorem Stable.negl (hP : Stable A P) (src des : Ref) {s : State} (hA : Allows A (Instr.negl src des).parts.refs)
    (hc : CountsIn A s) (h : P s) : NextHas P (execNegl src des s) := by
  unfold execNegl; exact hP.runPlain hc h fun _ => hP.writeBody hA _ h

theorem Stable.clc (hP : Stable A P) {s : State} 
    (hc : CountsIn A s) (h : P s) : NextHas P (execClc s) := by
  unfold execClc; exact hP.runPlain hc h fun _ => hP.ps _ _ h

theorem Stable.rep (hP : Stable A P) (src : Ref) {s : State} 
    (hc : CountsIn A s) (h : P s) : NextHas P (execRep src s) := by
  unfold execRep; exact hP.runPlain hc h fun _ => hP.repBody _ _ _ h

theorem Stable.ble (hP : Stable A P) (src : Ref) {s : State} (hA : Allows A (Instr.ble src).parts.refs)
    (hc : CountsIn A s) (h : P s) : NextHas P (execBle src s) := by
  unfold execBle; exact hP.runBranch hc h fun _ _ _ h => hP.branchBody _ _ hA _ h

theorem Stable.sbrb (hP : Stable A P) (src des : Ref) {s : State} (hA : Allows A (Instr.sbrb src des).parts.refs)
    (hc : CountsIn A s) (h : P s) : NextHas P (execSbrb src des s) := by
  unfold execSbrb; exact hP.runPlain hc h fun _ => hP.modifyBody hA _ h

theorem Stable.rotb (hP : Stable A P) (src des : Ref) {s : State} (hA : Allows A (Instr.rotb src des).parts.refs)
    (hc : CountsIn A s) (h : P s) : NextHas P (execRotb src des s) := by
  unfold execRotb; exact hP.runPlain hc h fun _ => hP.modifyBody hA _ h

theorem Stable.sbrh (hP : Stable A P) (src des : Ref) {s : State} (hA : Allows A (Instr.sbrh src des).parts.refs)
    (hc : CountsIn A s) (h : P s) : NextHas P (execSbrh src des s) := by
  unfold execSbrh; exact hP.runPlain hc h fun _ => hP.modifyBody hA _ h

theorem Stable.roth (hP : Stable A P) (src des : Ref) {s : State} (hA : Allows A (Instr.roth src des).parts.refs)
    (hc : CountsIn A s) (h : P s) : NextHas P (execRoth src des s) := by
  unfold execRoth; exact hP.runPlain hc h fun _ => hP.modifyBody hA _ h

theorem Stable.sbrw (hP : Stable A P) (src des : Ref) {s : State} (hA : Allows A (Instr.sbrw src des).parts.refs)
    (hc : CountsIn A s) (h : P s) : NextHas P (execSbrw src des s) := by
  unfold execSbrw; exact hP.runPlain hc h fun _ => hP.modifyBody hA _ h

theorem Stable.rotw (hP : Stable A P) (src des : Ref) {s : State} (hA : Allows A (Instr.rotw src des).parts.refs)
    (hc : CountsIn A s) (h : P s) : NextHas P (execRotw src des s) := by
  unfold execRotw; exact hP.runPlain hc h fun _ => hP.modifyBody hA _ h

theorem Stable.sbrr (hP : Stable A P) (src des : Ref) {s : State} (hA : Allows A (Instr.sbrr src des).parts.refs)
    (hc : CountsIn A s) (h : P s) : NextHas P (execSbrr src des s) := by
  unfold execSbrr; exact hP.runPlain hc h fun _ => hP.modifyBody hA _ h

theorem Stable.cvwr (hP : Stable A P) (src des : Ref) {s : State} (hA : Allows A (Instr.cvwr src des).parts.refs)
    (hc : CountsIn A s) (h : P s) : NextHas P (execCvwr src des s) := by
  unfold execCvwr; exact hP.runPlain hc h fun _ => hP.writeBody hA _ h

theorem Stable.sbrl (hP : Stable A P) (src des : Ref) {s : State} (hA : Allows A (Instr.sbrl src des).parts.refs)
    (hc : CountsIn A s) (h : P s) : NextHas P (execSbrl src des s) := by
  unfold execSbrl; exact hP.runPlain hc h fun _ => hP.modifyBody hA _ h

theorem Stable.stc (hP : Stable A P) {s : State} 
    (hc : CountsIn A s) (h : P s) : NextHas P (execStc s) := by
  unfold execStc; exact hP.runPlain hc h fun _ => hP.ps _ _ h

theorem Stable.repz (hP : Stable A P) (src : Ref) {s : State} 
    (hc : CountsIn A s) (h : P s) : NextHas P (execRepz src s) := by
  unfold execRepz; exact hP.runPlain hc h fun _ => hP.repBody _ _ _ h

theorem Stable.bgu (hP : Stable A P) (src : Ref) {s : State} (hA : Allows A (Instr.bgu src).parts.refs)
    (hc : CountsIn A s) (h : P s) : NextHas P (execBgu src s) := by
  unfold execBgu; exact hP.runBranch hc h fun _ _ _ h => hP.branchBody _ _ hA _ h

theorem Stable.cmpb (hP : Stable A P) (src des : Ref) {s : State} (hA : Allows A (Instr.cmpb src des).parts.refs)
    (hc : CountsIn A s) (h : P s) : NextHas P (execCmpb src des s) := by
  unfold execCmpb; exact hP.runPlain hc h fun _ => hP.flagsBody hA _ h

theorem Stable.ffob (hP : Stable A P) (src des : Ref) {s : State} (hA : Allows A (Instr.ffob src des).parts.refs)
    (hc : CountsIn A s) (h : P s) : NextHas P (execFfob src des s) := by
  unfold execFfob; exact hP.runPlain hc h fun _ => hP.writeBody hA _ h

theorem Stable.cmph (hP : Stable A P) (src des : Ref) {s : State} (hA : Allows A (Instr.cmph src des).parts.refs)
    (hc : CountsIn A s) (h : P s) : NextHas P (execCmph src des s) := by
  unfold execCmph; exact hP.runPlain hc h fun _ => hP.flagsBody hA _ h

theorem Stable.ffoh (hP : Stable A P) (src des : Ref) {s : State} (hA : Allows A (Instr.ffoh src des).parts.refs)
    (hc : CountsIn A s) (h : P s) : NextHas P (execFfoh src des s) := by
  unfold execFfoh; exact hP.runPlain hc h fun _ => hP.writeBody hA _ h

theorem Stable.cmpw (hP : Stable A P) (src des : Ref) {s : State} (hA : Allows A (Instr.cmpw src des).parts.refs)
    (hc : CountsIn A s) (h : P s) : NextHas P (execCmpw src des s) := by
  unfold execCmpw; exact hP.runPlain hc h fun _ => hP.flagsBody hA _ h

theorem Stable.ffow (hP : Stable A P) (src des : Ref) {s : State} (hA : Allows A (Instr.ffow src des).parts.refs)
    (hc : CountsIn A s) (h : P s) : NextHas P (execFfow src des s) := by
  unfold execFfow; exact hP.runPlain hc h fun _ => hP.writeBody hA _ h

theorem Stable.cmpr (hP : Stable A P) (src des : Ref) {s : State} (hA : Allows A (Instr.cmpr src des).parts.refs)
    (hc : CountsIn A s) (h : P s) : NextHas P (execCmpr src des s) := by
  unfold execCmpr; exact hP.runPlain hc h fun _ => hP.flagsBody hA _ h

theorem Stable.cvlr (hP : Stable A P) (src des : Ref) {s : State} (hA : Allows A (Instr.cvlr src des).parts.refs)
    (hc : CountsIn A s) (h : P s) : NextHas P (execCvlr src des s) := by
  unfold execCvlr; exact hP.runPlain hc h fun _ => hP.writeBody hA _ h

theorem Stable.cmpl (hP : Stable A P) (src des : Ref) {s : State} (hA : Allows A (Instr.cmpl src des).parts.refs)
    (hc : CountsIn A s) (h : P s) : NextHas P (execCmpl src des s) := by
  unfold execCmpl; exact hP.runPlain hc h fun _ => hP.flagsBody hA _ h

theorem Stable.cmc (hP : Stable A P) {s : State} 
    (hc : CountsIn A s) (h : P s) : NextHas P (execCmc s) := by
  unfold execCmc; exact hP.runPlain hc h fun _ => hP.ps _ _ h

theorem Stable.repnz (hP : Stable A P) (src : Ref) {s : State} 
    (hc : CountsIn A s) (h : P s) : NextHas P (execRepnz src s) := by
  unfold execRepnz; exact hP.runPlain hc h fun _ => hP.repBody _ _ _ h

theorem Stable.bleu (hP : Stable A P) (src : Ref) {s : State} (hA : Allows A (Instr.bleu src).parts.refs)
    (hc : CountsIn A s) (h : P s) : NextHas P (execBleu src s) := by
  unfold execBleu; exact hP.runBranch hc h fun _ _ _ h => hP.branchBody _ _ hA _ h

theorem Stable.addb (hP : Stable A P) (src des : Ref) {s : State} (hA : Allows A (Instr.addb src des).parts.refs)
    (hc : CountsIn A s) (h : P s) : NextHas P (execAddb src des s) := by
  unfold execAddb; exact hP.runPlain hc h fun _ => hP.modifyBody hA _ h

theorem Stable.andb (hP : Stable A P) (src des : Ref) {s : State} (hA : Allows A (Instr.andb src des).parts.refs)
    (hc : CountsIn A s) (h : P s) : NextHas P (execAndb src des s) := by
  unfold execAndb; exact hP.runPlain hc h fun _ => hP.modifyBody hA _ h

theorem Stable.addh (hP : Stable A P) (src des : Ref) {s : State} (hA : Allows A (Instr.addh src des).parts.refs)
    (hc : CountsIn A s) (h : P s) : NextHas P (execAddh src des s) := by
  unfold execAddh; exact hP.runPlain hc h fun _ => hP.modifyBody hA _ h

theorem Stable.andh (hP : Stable A P) (src des : Ref) {s : State} (hA : Allows A (Instr.andh src des).parts.refs)
    (hc : CountsIn A s) (h : P s) : NextHas P (execAndh src des s) := by
  unfold execAndh; exact hP.runPlain hc h fun _ => hP.modifyBody hA _ h

theorem Stable.addw (hP : Stable A P) (src des : Ref) {s : State} (hA : Allows A (Instr.addw src des).parts.refs)
    (hc : CountsIn A s) (h : P s) : NextHas P (execAddw src des s) := by
  unfold execAddw; exact hP.runPlain hc h fun _ => hP.modifyBody hA _ h

theorem Stable.andw (hP : Stable A P) (src des : Ref) {s : State} (hA : Allows A (Instr.andw src des).parts.refs)
    (hc : CountsIn A s) (h : P s) : NextHas P (execAndw src des s) := by
  unfold execAndw; exact hP.runPlain hc h fun _ => hP.modifyBody hA _ h

theorem Stable.addr (hP : Stable A P) (src des : Ref) {s : State} (hA : Allows A (Instr.addr src des).parts.refs)
    (hc : CountsIn A s) (h : P s) : NextHas P (execAddr src des s) := by
  unfold execAddr; exact hP.runPlain hc h fun _ => hP.modifyBody hA _ h

theorem Stable.cvbl (hP : Stable A P) (src des : Ref) {s : State} (hA : Allows A (Instr.cvbl src des).parts.refs)
    (hc : CountsIn A s) (h : P s) : NextHas P (execCvbl src des s) := by
  unfold execCvbl; exact hP.runPlain hc h fun _ => hP.writeBody hA _ h

theorem Stable.addl (hP : Stable A P) (src des : Ref) {s : State} (hA : Allows A (Instr.addl src des).parts.refs)
    (hc : CountsIn A s) (h : P s) : NextHas P (execAddl src des s) := by
  unfold execAddl; exact hP.runPlain hc h fun _ => hP.modifyBody hA _ h

theorem Stable.trap (hP : Stable A P) (src : Ref) {s : State} (hA : Allows A (Instr.trap src).parts.refs)
    (hc : CountsIn A s) (h : P s) : NextHas P (execTrap src s) := by
  unfold execTrap; exact hP.runPlain hc h fun _ => hP.readBody hA h fun _ _ ht => hP.softwareInterrupt _ _ ht

theorem Stable.bge (hP : Stable A P) (src : Ref) {s : State} (hA : Allows A (Instr.bge src).parts.refs)
    (hc : CountsIn A s) (h : P s) : NextHas P (execBge src s) := by
  unfold execBge; exact hP.runBranch hc h fun _ _ _ h => hP.branchBody _ _ hA _ h

theorem Stable.adcb (hP : Stable A P) (src des : Ref) {s : State} (hA : Allows A (Instr.adcb src des).parts.refs)
    (hc : CountsIn A s) (h : P s) : NextHas P (execAdcb src des s) := by
  unfold execAdcb; exact hP.runPlain hc h fun _ => hP.modifyBody hA _ h

theorem Stable.orb (hP : Stable A P) (src des : Ref) {s : State} (hA : Allows A (Instr.orb src des).parts.refs)
    (hc : CountsIn A s) (h : P s) : NextHas P (execOrb src des s) := by
  unfold execOrb; exact hP.runPlain hc h fun _ => hP.modifyBody hA _ h

theorem Stable.adch (hP : Stable A P) (src des : Ref) {s : State} (hA : Allows A (Instr.adch src des).parts.refs)
    (hc : CountsIn A s) (h : P s) : NextHas P (execAdch src des s) := by
  unfold execAdch; exact hP.runPlain hc h fun _ => hP.modifyBody hA _ h

theorem Stable.orh (hP : Stable A P) (src des : Ref) {s : State} (hA : Allows A (Instr.orh src des).parts.refs)
    (hc : CountsIn A s) (h : P s) : NextHas P (execOrh src des s) := by
  unfold execOrh; exact hP.runPlain hc h fun _ => hP.modifyBody hA _ h

theorem Stable.adcw (hP : Stable A P) (src des : Ref) {s : State} (hA : Allows A (Instr.adcw src des).parts.refs)
    (hc : CountsIn A s) (h : P s) : NextHas P (execAdcw src des s) := by
  unfold execAdcw; exact hP.runPlain hc h fun _ => hP.modifyBody hA _ h

theorem Stable.orw (hP : Stable A P) (src des : Ref) {s : State} (hA : Allows A (Instr.orw src des).parts.refs)
    (hc : CountsIn A s) (h : P s) : NextHas P (execOrw src des s) := by
  unfold execOrw; exact hP.runPlain hc h fun _ => hP.modifyBody hA _ h

theorem Stable.sqtr (hP : Stable A P) (src des : Ref) {s : State} (hA : Allows A (Instr.sqtr src des).parts.refs)
    (hc : CountsIn A s) (h : P s) : NextHas P (execSqtr src des s) := by
  unfold execSqtr; exact hP.runPlain hc h fun _ => hP.writeBody hA _ h

theorem Stable.cvhl (hP : Stable A P) (src des : Ref) {s : State} (hA : Allows A (Instr.cvhl src des).parts.refs)
    (hc : CountsIn A s) (h : P s) : NextHas P (execCvhl src des s) := by
  unfold execCvhl; exact hP.runPlain hc h fun _ => hP.writeBody hA _ h

theorem Stable.sqtl (hP : Stable A P) (src des : Ref) {s : State} (hA : Allows A (Instr.sqtl src des).parts.refs)
    (hc : CountsIn A s) (h : P s) : NextHas P (execSqtl src des s) := by
  unfold execSqtl; exact hP.runPlain hc h fun _ => hP.writeBody hA _ h

theorem Stable.bl (hP : Stable A P) (src : Ref) {s : State} (hA : Allows A (Instr.bl src).parts.refs)
    (hc : CountsIn A s) (h : P s) : NextHas P (execBl src s) := by
  unfold execBl; exact hP.runBranch hc h fun _ _ _ h => hP.branchBody _ _ hA _ h

theorem Stable.subb (hP : Stable A P) (src des : Ref) {s : State} (hA : Allows A (Instr.subb src des).parts.refs)
    (hc : CountsIn A s) (h : P s) : NextHas P (execSubb src des s) := by
  unfold execSubb; exact hP.runPlain hc h fun _ => hP.modifyBody hA _ h

theorem Stable.xorb (hP : Stable A P) (src des : Ref) {s : State} (hA : Allows A (Instr.xorb src des).parts.refs)
    (hc : CountsIn A s) (h : P s) : NextHas P (execXorb src des s) := by
  unfold execXorb; exact hP.runPlain hc h fun _ => hP.modifyBody hA _ h

theorem Stable.subh (hP : Stable A P) (src des : Ref) {s : State} (hA : Allows A (Instr.subh src des).parts.refs)
    (hc : CountsIn A s) (h : P s) : NextHas P (execSubh src des s) := by
  unfold execSubh; exact hP.runPlain hc h fun _ => hP.modifyBody hA _ h

theorem Stable.xorh (hP : Stable A P) (src des : Ref) {s : State} (hA : Allows A (Instr.xorh src des).parts.refs)
    (hc : CountsIn A s) (h : P s) : NextHas P (execXorh src des s) := by
  unfold execXorh; exact hP.runPlain hc h fun _ => hP.modifyBody hA _ h

theorem Stable.subw (hP : Stable A P) (src des : Ref) {s : State} (hA : Allows A (Instr.subw src des).parts.refs)
    (hc : CountsIn A s) (h : P s) : NextHas P (execSubw src des s) := by
  unfold execSubw; exact hP.runPlain hc h fun _ => hP.modifyBody hA _ h

theorem Stable.xorw (hP : Stable A P) (src des : Ref) {s : State} (hA : Allows A (Instr.xorw src des).parts.refs)
    (hc : CountsIn A s) (h : P s) : NextHas P (execXorw src des s) := by
  unfold execXorw; exact hP.runPlain hc h fun _ => hP.modifyBody hA _ h

theorem Stable.subr (hP : Stable A P) (src des : Ref) {s : State} (hA : Allows A (Instr.subr src des).parts.refs)
    (hc : CountsIn A s) (h : P s) : NextHas P (execSubr src des s) := by
  unfold execSubr; exact hP.runPlain hc h fun _ => hP.modifyBody hA _ h

theorem Stable.cvwl (hP : Stable A P) (src des : Ref) {s : State} (hA : Allows A (Instr.cvwl src des).parts.refs)
    (hc : CountsIn A s) (h : P s) : NextHas P (execCvwl src des s) := by
  unfold execCvwl; exact hP.runPlain hc h fun _ => hP.writeBody hA _ h

theorem Stable.subl (hP : Stable A P) (src des : Ref) {s : State} (hA : Allows A (Instr.subl src des).parts.refs)
    (hc : CountsIn A s) (h : P s) : NextHas P (execSubl src des s) := by
  unfold execSubl; exact hP.runPlain hc h fun _ => hP.modifyBody hA _ h

theorem Stable.bkpt (hP : Stable A P) {s : State} 
    (hc : CountsIn A s) (h : P s) : NextHas P (execBkpt s) := by
  unfold execBkpt; exact hP.runPlain hc h fun _ => hP.softwareInterrupt _ _ h

theorem Stable.bgeu (hP : Stable A P) (src : Ref) {s : State} (hA : Allows A (Instr.bgeu src).parts.refs)
    (hc : CountsIn A s) (h : P s) : NextHas P (execBgeu src s) := by
  unfold execBgeu; exact hP.runBranch hc h fun _ _ _ h => hP.branchBody _ _ hA _ h

theorem Stable.sbbb (hP : Stable A P) (src des : Ref) {s : State} (hA : Allows A (Instr.sbbb src des).parts.refs)
    (hc : CountsIn A s) (h : P s) : NextHas P (execSbbb src des s) := by
  unfold execSbbb; exact hP.runPlain hc h fun _ => hP.modifyBody hA _ h

theorem Stable.notb (hP : Stable A P) (src des : Ref) {s : State} (hA : Allows A (Instr.notb src des).parts.refs)
    (hc : CountsIn A s) (h : P s) : NextHas P (execNotb src des s) := by
  unfold execNotb; exact hP.runPlain hc h fun _ => hP.writeBody hA _ h

theorem Stable.sbbh (hP : Stable A P) (src des : Ref) {s : State} (hA : Allows A (Instr.sbbh src des).parts.refs)
    (hc : CountsIn A s) (h : P s) : NextHas P (execSbbh src des s) := by
  unfold execSbbh; exact hP.runPlain hc h fun _ => hP.modifyBody hA _ h

theorem Stable.noth (hP : Stable A P) (src des : Ref) {s : State} (hA : Allows A (Instr.noth src des).parts.refs)
    (hc : CountsIn A s) (h : P s) : NextHas P (execNoth src des s) := by
  unfold execNoth; exact hP.runPlain hc h fun _ => hP.writeBody hA _ h

theorem Stable.sbbw (hP : Stable A P) (src des : Ref) {s : State} (hA : Allows A (Instr.sbbw src des).parts.refs)
    (hc : CountsIn A s) (h : P s) : NextHas P (execSbbw src des s) := by
  unfold execSbbw; exact hP.runPlain hc h fun _ => hP.modifyBody hA _ h

theorem Stable.notw (hP : Stable A P) (src des : Ref) {s : State} (hA : Allows A (Instr.notw src des).parts.refs)
    (hc : CountsIn A s) (h : P s) : NextHas P (execNotw src des s) := by
  unfold execNotw; exact hP.runPlain hc h fun _ => hP.writeBody hA _ h

theorem Stable.sgnr (hP : Stable A P) (src des : Ref) {s : State} (hA : Allows A (Instr.sgnr src des).parts.refs)
    (hc : CountsIn A s) (h : P s) : NextHas P (execSgnr src des s) := by
  unfold execSgnr; exact hP.runPlain hc h fun _ => hP.modifyBody hA _ h

theorem Stable.cvrl (hP : Stable A P) (src des : Ref) {s : State} (hA : Allows A (Instr.cvrl src des).parts.refs)
    (hc : CountsIn A s) (h : P s) : NextHas P (execCvrl src des s) := by
  unfold execCvrl; exact hP.runPlain hc h fun _ => hP.writeBody hA _ h

theorem Stable.sgnl (hP : Stable A P) (src des : Ref) {s : State} (hA : Allows A (Instr.sgnl src des).parts.refs)
    (hc : CountsIn A s) (h : P s) : NextHas P (execSgnl src des s) := by
  unfold execSgnl; exact hP.runPlain hc h fun _ => hP.modifyBody hA _ h

theorem Stable.blu (hP : Stable A P) (src : Ref) {s : State} (hA : Allows A (Instr.blu src).parts.refs)
    (hc : CountsIn A s) (h : P s) : NextHas P (execBlu src s) := by
  unfold execBlu; exact hP.runBranch hc h fun _ _ _ h => hP.branchBody _ _ hA _ h

theorem Stable.mulb (hP : Stable A P) (src des : Ref) {s : State} (hA : Allows A (Instr.mulb src des).parts.refs)
    (hc : CountsIn A s) (h : P s) : NextHas P (execMulb src des s) := by
  unfold execMulb; exact hP.runPlain hc h fun _ => hP.modifyBody hA _ h

theorem Stable.adcd (hP : Stable A P) (src des : Ref) {s : State} (hA : Allows A (Instr.adcd src des).parts.refs)
    (hc : CountsIn A s) (h : P s) : NextHas P (execAdcd src des s) := by
  unfold execAdcd; exact hP.runPlain hc h fun _ => hP.modifyBody hA _ h

theorem Stable.mulh (hP : Stable A P) (src des : Ref) {s : State} (hA : Allows A (Instr.mulh src des).parts.refs)
    (hc : CountsIn A s) (h : P s) : NextHas P (execMulh src des s) := by
  unfold execMulh; exact hP.runPlain hc h fun _ => hP.modifyBody hA _ h

theorem Stable.mulw (hP : Stable A P) (src des : Ref) {s : State} (hA : Allows A (Instr.mulw src des).parts.refs)
    (hc : CountsIn A s) (h : P s) : NextHas P (execMulw src des s) := by
  unfold execMulw; exact hP.runPlain hc h fun _ => hP.modifyBody hA _ h

theorem Stable.mulr (hP : Stable A P) (src des : Ref) {s : State} (hA : Allows A (Instr.mulr src des).parts.refs)
    (hc : CountsIn A s) (h : P s) : NextHas P (execMulr src des s) := by
  unfold execMulr; exact hP.runPlain hc h fun _ => hP.modifyBody hA _ h

theorem Stable.cvbw (hP : Stable A P) (src des : Ref) {s : State} (hA : Allows A (Instr.cvbw src des).parts.refs)
    (hc : CountsIn A s) (h : P s) : NextHas P (execCvbw src des s) := by
  unfold execCvbw; exact hP.runPlain hc h fun _ => hP.writeBody hA _ h

theorem Stable.mull (hP : Stable A P) (src des : Ref) {s : State} (hA : Allows A (Instr.mull src des).parts.refs)
    (hc : CountsIn A s) (h : P s) : NextHas P (execMull src des s) := by
  unfold execMull; exact hP.runPlain hc h fun _ => hP.modifyBody hA _ h

theorem Stable.ei (hP : Stable A P) {s : State} 
    (hc : CountsIn A s) (h : P s) : NextHas P (execEi s) := by
  unfold execEi; exact hP.runPlain hc h fun _ => hP.ps _ _ h

theorem Stable.bne (hP : Stable A P) (src : Ref) {s : State} (hA : Allows A (Instr.bne src).parts.refs)
    (hc : CountsIn A s) (h : P s) : NextHas P (execBne src s) := by
  unfold execBne; exact hP.runBranch hc h fun _ _ _ h => hP.branchBody _ _ hA _ h

theorem Stable.dvrb (hP : Stable A P) (src des : Ref) {s : State} (hA : Allows A (Instr.dvrb src des).parts.refs)
    (hc : CountsIn A s) (h : P s) : NextHas P (execDvrb src des s) := by
  unfold execDvrb; exact hP.runPlain hc h fun _ => hP.modifyBody hA _ h

theorem Stable.sbbd (hP : Stable A P) (src des : Ref) {s : State} (hA : Allows A (Instr.sbbd src des).parts.refs)
    (hc : CountsIn A s) (h : P s) : NextHas P (execSbbd src des s) := by
  unfold execSbbd; exact hP.runPlain hc h fun _ => hP.modifyBody hA _ h

theorem Stable.dvrh (hP : Stable A P) (src des : Ref) {s : State} (hA : Allows A (Instr.dvrh src des).parts.refs)
    (hc : CountsIn A s) (h : P s) : NextHas P (execDvrh src des s) := by
  unfold execDvrh; exact hP.runPlain hc h fun _ => hP.modifyBody hA _ h

theorem Stable.dvrw (hP : Stable A P) (src des : Ref) {s : State} (hA : Allows A (Instr.dvrw src des).parts.refs)
    (hc : CountsIn A s) (h : P s) : NextHas P (execDvrw src des s) := by
  unfold execDvrw; exact hP.runPlain hc h fun _ => hP.modifyBody hA _ h

theorem Stable.stpr (hP : Stable A P) (src des : Ref) {s : State} (hA : Allows A (Instr.stpr src des).parts.refs)
    (hc : CountsIn A s) (h : P s) : NextHas P (execStpr src des s) := by
  unfold execStpr; exact hP.runPlain hc h fun _ => hP.stprBody hA _ h

theorem Stable.dvrr (hP : Stable A P) (src des : Ref) {s : State} (hA : Allows A (Instr.dvrr src des).parts.refs)
    (hc : CountsIn A s) (h : P s) : NextHas P (execDvrr src des s) := by
  unfold execDvrr; exact hP.runPlain hc h fun _ => hP.modifyBody hA _ h

theorem Stable.cvhw (hP : Stable A P) (src des : Ref) {s : State} (hA : Allows A (Instr.cvhw src des).parts.refs)
    (hc : CountsIn A s) (h : P s) : NextHas P (execCvhw src des s) := by
  unfold execCvhw; exact hP.runPlain hc h fun _ => hP.writeBody hA _ h

theorem Stable.dvrl (hP : Stable A P) (src des : Ref) {s : State} (hA : Allows A (Instr.dvrl src des).parts.refs)
    (hc : CountsIn A s) (h : P s) : NextHas P (execDvrl src des s) := by
  unfold execDvrl; exact hP.runPlain hc h fun _ => hP.modifyBody hA _ h

theorem Stable.di (hP : Stable A P) {s : State} 
    (hc : CountsIn A s) (h : P s) : NextHas P (execDi s) := by
  unfold execDi; exact hP.runPlain hc h fun _ => hP.ps _ _ h

theorem Stable.be (hP : Stable A P) (src : Ref) {s : State} (hA : Allows A (Instr.be src).parts.refs)
    (hc : CountsIn A s) (h : P s) : NextHas P (execBe src s) := by
  unfold execBe; exact hP.runBranch hc h fun _ _ _ h => hP.branchBody _ _ hA _ h

theorem Stable.remb (hP : Stable A P) (src des : Ref) {s : State} (hA : Allows A (Instr.remb src des).parts.refs)
    (hc : CountsIn A s) (h : P s) : NextHas P (execRemb src des s) := by
  unfold execRemb; exact hP.runPlain hc h fun _ => hP.modifyBody hA _ h

theorem Stable.remh (hP : Stable A P) (src des : Ref) {s : State} (hA : Allows A (Instr.remh src des).parts.refs)
    (hc : CountsIn A s) (h : P s) : NextHas P (execRemh src des s) := by
  unfold execRemh; exact hP.runPlain hc h fun _ => hP.modifyBody hA _ h

theorem Stable.remw (hP : Stable A P) (src des : Ref) {s : State} (hA : Allows A (Instr.remw src des).parts.refs)
    (hc : CountsIn A s) (h : P s) : NextHas P (execRemw src des s) := by
  unfold execRemw; exact hP.runPlain hc h fun _ => hP.modifyBody hA _ h

theorem Stable.remr (hP : Stable A P) (src des : Ref) {s : State} (hA : Allows A (Instr.remr src des).parts.refs)
    (hc : CountsIn A s) (h : P s) : NextHas P (execRemr src des s) := by
  unfold execRemr; exact hP.runPlain hc h fun _ => hP.modifyBody hA _ h

theorem Stable.cvwb (hP : Stable A P) (src des : Ref) {s : State} (hA : Allows A (Instr.cvwb src des).parts.refs)
    (hc : CountsIn A s) (h : P s) : NextHas P (execCvwb src des s) := by
  unfold execCvwb; exact hP.runPlain hc h fun _ => hP.writeBody hA _ h

theorem Stable.reml (hP : Stable A P) (src des : Ref) {s : State} (hA : Allows A (Instr.reml src des).parts.refs)
    (hc : CountsIn A s) (h : P s) : NextHas P (execReml src des s) := by
  unfold execReml; exact hP.runPlain hc h fun _ => hP.modifyBody hA _ h

theorem Stable.bnv (hP : Stable A P) (src : Ref) {s : State} (hA : Allows A (Instr.bnv src).parts.refs)
    (hc : CountsIn A s) (h : P s) : NextHas P (execBnv src s) := by
  unfold execBnv; exact hP.runBranch hc h fun _ _ _ h => hP.branchBody _ _ hA _ h

theorem Stable.divb (hP : Stable A P) (src des : Ref) {s : State} (hA : Allows A (Instr.divb src des).parts.refs)
    (hc : CountsIn A s) (h : P s) : NextHas P (execDivb src des s) := by
  unfold execDivb; exact hP.runPlain hc h fun _ => hP.modifyBody hA _ h

theorem Stable.divh (hP : Stable A P) (src des : Ref) {s : State} (hA : Allows A (Instr.divh src des).parts.refs)
    (hc : CountsIn A s) (h : P s) : NextHas P (execDivh src des s) := by
  unfold execDivh; exact hP.runPlain hc h fun _ => hP.modifyBody hA _ h

theorem Stable.divw (hP : Stable A P) (src des : Ref) {s : State} (hA : Allows A (Instr.divw src des).parts.refs)
    (hc : CountsIn A s) (h : P s) : NextHas P (execDivw src des s) := by
  unfold execDivw; exact hP.runPlain hc h fun _ => hP.modifyBody hA _ h

theorem Stable.divr (hP : Stable A P) (src des : Ref) {s : State} (hA : Allows A (Instr.divr src des).parts.refs)
    (hc : CountsIn A s) (h : P s) : NextHas P (execDivr src des s) := by
  unfold execDivr; exact hP.runPlain hc h fun _ => hP.modifyBody hA _ h

theorem Stable.cvwh (hP : Stable A P) (src des : Ref) {s : State} (hA : Allows A (Instr.cvwh src des).parts.refs)
    (hc : CountsIn A s) (h : P s) : NextHas P (execCvwh src des s) := by
  unfold execCvwh; exact hP.runPlain hc h fun _ => hP.writeBody hA _ h

theorem Stable.divl (hP : Stable A P) (src des : Ref) {s : State} (hA : Allows A (Instr.divl src des).parts.refs)
    (hc : CountsIn A s) (h : P s) : NextHas P (execDivl src des s) := by
  unfold execDivl; exact hP.runPlain hc h fun _ => hP.modifyBody hA _ h

theorem Stable.bv (hP : Stable A P) (src : Ref) {s : State} (hA : Allows A (Instr.bv src).parts.refs)
    (hc : CountsIn A s) (h : P s) : NextHas P (execBv src s) := by
  unfold execBv; exact hP.runBranch hc h fun _ _ _ h => hP.branchBody _ _ hA _ h

theorem Stable.bitb (hP : Stable A P) (src des : Ref) {s : State} (hA : Allows A (Instr.bitb src des).parts.refs)
    (hc : CountsIn A s) (h : P s) : NextHas P (execBitb src des s) := by
  unfold execBitb; exact hP.runPlain hc h fun _ => hP.flagsBody hA _ h

theorem Stable.bith (hP : Stable A P) (src des : Ref) {s : State} (hA : Allows A (Instr.bith src des).parts.refs)
    (hc : CountsIn A s) (h : P s) : NextHas P (execBith src des s) := by
  unfold execBith; exact hP.runPlain hc h fun _ => hP.flagsBody hA _ h

theorem Stable.bitw (hP : Stable A P) (src des : Ref) {s : State} (hA : Allows A (Instr.bitw src des).parts.refs)
    (hc : CountsIn A s) (h : P s) : NextHas P (execBitw src des s) := by
  unfold execBitw; exact hP.runPlain hc h fun _ => hP.flagsBody hA _ h

theorem Stable.cvrw (hP : Stable A P) (src des : Ref) {s : State} (hA : Allows A (Instr.cvrw src des).parts.refs)
    (hc : CountsIn A s) (h : P s) : NextHas P (execCvrw src des s) := by
  unfold execCvrw; exact hP.runPlain hc h fun _ => hP.writeBody hA _ h

theorem Stable.reti (hP : Stable A P) {s : State} 
    (hc : CountsIn A s) (h : P s) : NextHas P (execReti s) := by
  unfold execReti; exact hP.runPlain hc h fun _ => (hP.returnFromInterrupt h).bind' fun _ _ h => h

theorem Stable.call (hP : Stable A P) (src : Ref) {s : State} (hA : Allows A (Instr.call src).parts.refs)
    (hc : CountsIn A s) (h : P s) : NextHas P (execCall src s) := by
  unfold execCall; exact hP.runBranch hc h fun _ _ _ h => hP.callBody hA _ h

theorem Stable.cvlw (hP : Stable A P) (src des : Ref) {s : State} (hA : Allows A (Instr.cvlw src des).parts.refs)
    (hc : CountsIn A s) (h : P s) : NextHas P (execCvlw src des s) := by
  unfold execCvlw; exact hP.runPlain hc h fun _ => hP.writeBody hA _ h

theorem Stable.wait (hP : Stable A P) {s : State} 
    (hc : CountsIn A s) (h : P s) : NextHas P (execWait s) := by
  unfold execWait; exact hP.runPlain hc h fun _ => hP.idle _ _ h

theorem Stable.jmp (hP : Stable A P) (src : Ref) {s : State} (hA : Allows A (Instr.jmp src).parts.refs)
    (hc : CountsIn A s) (h : P s) : NextHas P (execJmp src s) := by
  unfold execJmp; exact hP.runBranch hc h fun _ _ _ h => hP.branchBody _ _ hA _ h

theorem Stable.mova (hP : Stable A P) (src des : Ref) {s : State} (hA : Allows A (Instr.mova src des).parts.refs)
    (hc : CountsIn A s) (h : P s) : NextHas P (execMova src des s) := by
  unfold execMova; exact hP.runPlain hc h fun _ => hP.movaBody hA _ h

theorem Stable.ret (hP : Stable A P) {s : State} 
    (hc : CountsIn A s) (h : P s) : NextHas P (execRet s) := by
  unfold execRet; exact hP.runBranch hc h fun _ _ _ h => hP.retBody h

theorem Stable.retp (hP : Stable A P) (src : Ref) {s : State} (hA : Allows A (Instr.retp src).parts.refs)
    (hc : CountsIn A s) (h : P s) : NextHas P (execRetp src s) := by
  unfold execRetp; exact hP.runBranch hc h fun _ _ _ h => hP.retpBody hA h

/-- The conditions under which the instructions that do more than elementary updates keep a property. -/
structure Keeps (A : Fin 16 → Prop) (P : State → Prop) (i : Instr) : Prop where
  stable : Stable A P
  error : i = .eron ∨ i = .erof → ∀ (s : State) b, P s → P { s with errorFlag := b }
  rset : i = .rset → ∀ s, P s → P s.rset
  ldpr : ∀ src des, i = .ldpr src des → ∀ s n v t, P s → s.setProcReg n v = some t → P t
  lptr : ∀ src des, i = .lptr src des → ∀ a p d s, P s → (lptrAct a p d s).Ends P
  lcnt : ∀ src des, i = .lcnt src des → ∀ n p d s, P s → (lcntAct n p d s).Ends P
  bptr : ∀ src des, i = .bptr src des → ∀ a m d s, P s → (bptrAct a m d s).Ends P
  bcnt : ∀ src des, i = .bcnt src des → ∀ n m d s, P s → (bcntAct n m d s).Ends P

theorem Stable.look (hP : Stable A P) (i : Instr) (ts td : OpType) {k₁ k₂ : RefKind}
    (act : BitVec ts.bits → BitVec td.bits → Done → State → Flow Done) {src des : Ref}
    (hA : Allows A [(k₁, src), (k₂, des)]) {s : State} (hc : CountsIn A s) (h : P s)
    (ha : ∀ a b d s, P s → (act a b d s).Ends P) :
    NextHas P (Machine.runPlain i (Machine.lookBody ts td act src des) s) :=
  hP.runPlain hc h fun _ => hP.lookBody hA _ h fun _ _ _ _ ht => ha _ _ _ _ ht

theorem Stable.ldpr (hP : Stable A P) (src des : Ref) {s : State} (hA : Allows A (Instr.ldpr src des).parts.refs)
    (hc : CountsIn A s) (h : P s) (hL : ∀ s n v t, P s → s.setProcReg n v = some t → P t) :
    NextHas P (execLdpr src des s) := by
  refine hP.look (.ldpr src des) .w .b ldprAct hA hc h fun v n d t ht => ?_
  unfold ldprAct
  split
  · rename_i u hu; exact hL _ _ _ _ ht hu
  · trivial

theorem Keeps.rsetArm {i : Instr} (hK : Keeps A P i) (hi : i = .rset) {s : State} (hc : CountsIn A s) (h : P s) :
    NextHas P (execRset s) := by
  unfold execRset; exact hK.stable.runPlain hc h fun _ => hK.rset hi _ h

theorem Keeps.eronArm {i : Instr} (hK : Keeps A P i) (hi : i = .eron) {s : State} (hc : CountsIn A s) (h : P s) :
    NextHas P (execEron s) := by
  unfold execEron; exact hK.stable.runPlain hc h fun _ => hK.error (.inl hi) _ _ h

theorem Keeps.erofArm {i : Instr} (hK : Keeps A P i) (hi : i = .erof) {s : State} (hc : CountsIn A s) (h : P s) :
    NextHas P (execErof s) := by
  unfold execErof; exact hK.stable.runPlain hc h fun _ => hK.error (.inr hi) _ _ h

/-- What every instruction keeps: each arm of `exec` is one of the shapes above. -/
theorem Keeps.exec {i : Instr} (hK : Keeps A P i) {s : State} (hA : Allows A i.parts.refs) (hc : CountsIn A s)
    (h : P s) : NextHas P (exec i s) := by
  have hP := hK.stable
  cases i with
  | ldpr src des => exact hP.ldpr _ _ hA hc h (hK.ldpr _ _ rfl)
  | lptr src des => exact hP.look (.lptr src des) .w .w lptrAct hA hc h (hK.lptr _ _ rfl)
  | lcnt src des => exact hP.look (.lcnt src des) .w .b lcntAct hA hc h (hK.lcnt _ _ rfl)
  | bptr src des => exact hP.look (.bptr src des) .w .w bptrAct hA hc h (hK.bptr _ _ rfl)
  | bcnt src des => exact hP.look (.bcnt src des) .w .w bcntAct hA hc h (hK.bcnt _ _ rfl)
  | eron => exact hK.eronArm rfl hc h
  | erof => exact hK.erofArm rfl hc h
  | rset => exact hK.rsetArm rfl hc h
  | movb src des => exact hP.movb _ _ hA hc h
  | sftb src des => exact hP.sftb _ _ hA hc h
  | movh src des => exact hP.movh _ _ hA hc h
  | sfth src des => exact hP.sfth _ _ hA hc h
  | movw src des => exact hP.movw _ _ hA hc h
  | sftw src des => exact hP.sftw _ _ hA hc h
  | movr src des => exact hP.movr _ _ hA hc h
  | cvbr src des => exact hP.cvbr _ _ hA hc h
  | movl src des => exact hP.movl _ _ hA hc h
  | nop => exact hP.nop hc h
  | bg src => exact hP.bg _ hA hc h
  | negb src des => exact hP.negb _ _ hA hc h
  | sfab src des => exact hP.sfab _ _ hA hc h
  | negh src des => exact hP.negh _ _ hA hc h
  | sfah src des => exact hP.sfah _ _ hA hc h
  | negw src des => exact hP.negw _ _ hA hc h
  | sfaw src des => exact hP.sfaw _ _ hA hc h
  | negr src des => exact hP.negr _ _ hA hc h
  | cvhr src des => exact hP.cvhr _ _ hA hc h
  | negl src des => exact hP.negl _ _ hA hc h
  | clc => exact hP.clc hc h
  | rep src => exact hP.rep _ hc h
  | ble src => exact hP.ble _ hA hc h
  | sbrb src des => exact hP.sbrb _ _ hA hc h
  | rotb src des => exact hP.rotb _ _ hA hc h
  | sbrh src des => exact hP.sbrh _ _ hA hc h
  | roth src des => exact hP.roth _ _ hA hc h
  | sbrw src des => exact hP.sbrw _ _ hA hc h
  | rotw src des => exact hP.rotw _ _ hA hc h
  | sbrr src des => exact hP.sbrr _ _ hA hc h
  | cvwr src des => exact hP.cvwr _ _ hA hc h
  | sbrl src des => exact hP.sbrl _ _ hA hc h
  | stc => exact hP.stc hc h
  | repz src => exact hP.repz _ hc h
  | bgu src => exact hP.bgu _ hA hc h
  | cmpb src des => exact hP.cmpb _ _ hA hc h
  | ffob src des => exact hP.ffob _ _ hA hc h
  | cmph src des => exact hP.cmph _ _ hA hc h
  | ffoh src des => exact hP.ffoh _ _ hA hc h
  | cmpw src des => exact hP.cmpw _ _ hA hc h
  | ffow src des => exact hP.ffow _ _ hA hc h
  | cmpr src des => exact hP.cmpr _ _ hA hc h
  | cvlr src des => exact hP.cvlr _ _ hA hc h
  | cmpl src des => exact hP.cmpl _ _ hA hc h
  | cmc => exact hP.cmc hc h
  | repnz src => exact hP.repnz _ hc h
  | bleu src => exact hP.bleu _ hA hc h
  | addb src des => exact hP.addb _ _ hA hc h
  | andb src des => exact hP.andb _ _ hA hc h
  | addh src des => exact hP.addh _ _ hA hc h
  | andh src des => exact hP.andh _ _ hA hc h
  | addw src des => exact hP.addw _ _ hA hc h
  | andw src des => exact hP.andw _ _ hA hc h
  | addr src des => exact hP.addr _ _ hA hc h
  | cvbl src des => exact hP.cvbl _ _ hA hc h
  | addl src des => exact hP.addl _ _ hA hc h
  | trap src => exact hP.trap _ hA hc h
  | bge src => exact hP.bge _ hA hc h
  | adcb src des => exact hP.adcb _ _ hA hc h
  | orb src des => exact hP.orb _ _ hA hc h
  | adch src des => exact hP.adch _ _ hA hc h
  | orh src des => exact hP.orh _ _ hA hc h
  | adcw src des => exact hP.adcw _ _ hA hc h
  | orw src des => exact hP.orw _ _ hA hc h
  | sqtr src des => exact hP.sqtr _ _ hA hc h
  | cvhl src des => exact hP.cvhl _ _ hA hc h
  | sqtl src des => exact hP.sqtl _ _ hA hc h
  | bl src => exact hP.bl _ hA hc h
  | subb src des => exact hP.subb _ _ hA hc h
  | xorb src des => exact hP.xorb _ _ hA hc h
  | subh src des => exact hP.subh _ _ hA hc h
  | xorh src des => exact hP.xorh _ _ hA hc h
  | subw src des => exact hP.subw _ _ hA hc h
  | xorw src des => exact hP.xorw _ _ hA hc h
  | subr src des => exact hP.subr _ _ hA hc h
  | cvwl src des => exact hP.cvwl _ _ hA hc h
  | subl src des => exact hP.subl _ _ hA hc h
  | bkpt => exact hP.bkpt hc h
  | bgeu src => exact hP.bgeu _ hA hc h
  | sbbb src des => exact hP.sbbb _ _ hA hc h
  | notb src des => exact hP.notb _ _ hA hc h
  | sbbh src des => exact hP.sbbh _ _ hA hc h
  | noth src des => exact hP.noth _ _ hA hc h
  | sbbw src des => exact hP.sbbw _ _ hA hc h
  | notw src des => exact hP.notw _ _ hA hc h
  | sgnr src des => exact hP.sgnr _ _ hA hc h
  | cvrl src des => exact hP.cvrl _ _ hA hc h
  | sgnl src des => exact hP.sgnl _ _ hA hc h
  | blu src => exact hP.blu _ hA hc h
  | mulb src des => exact hP.mulb _ _ hA hc h
  | adcd src des => exact hP.adcd _ _ hA hc h
  | mulh src des => exact hP.mulh _ _ hA hc h
  | mulw src des => exact hP.mulw _ _ hA hc h
  | mulr src des => exact hP.mulr _ _ hA hc h
  | cvbw src des => exact hP.cvbw _ _ hA hc h
  | mull src des => exact hP.mull _ _ hA hc h
  | ei => exact hP.ei hc h
  | bne src => exact hP.bne _ hA hc h
  | dvrb src des => exact hP.dvrb _ _ hA hc h
  | sbbd src des => exact hP.sbbd _ _ hA hc h
  | dvrh src des => exact hP.dvrh _ _ hA hc h
  | dvrw src des => exact hP.dvrw _ _ hA hc h
  | stpr src des => exact hP.stpr _ _ hA hc h
  | dvrr src des => exact hP.dvrr _ _ hA hc h
  | cvhw src des => exact hP.cvhw _ _ hA hc h
  | dvrl src des => exact hP.dvrl _ _ hA hc h
  | di => exact hP.di hc h
  | be src => exact hP.be _ hA hc h
  | remb src des => exact hP.remb _ _ hA hc h
  | remh src des => exact hP.remh _ _ hA hc h
  | remw src des => exact hP.remw _ _ hA hc h
  | remr src des => exact hP.remr _ _ hA hc h
  | cvwb src des => exact hP.cvwb _ _ hA hc h
  | reml src des => exact hP.reml _ _ hA hc h
  | bnv src => exact hP.bnv _ hA hc h
  | divb src des => exact hP.divb _ _ hA hc h
  | divh src des => exact hP.divh _ _ hA hc h
  | divw src des => exact hP.divw _ _ hA hc h
  | divr src des => exact hP.divr _ _ hA hc h
  | cvwh src des => exact hP.cvwh _ _ hA hc h
  | divl src des => exact hP.divl _ _ hA hc h
  | bv src => exact hP.bv _ hA hc h
  | bitb src des => exact hP.bitb _ _ hA hc h
  | bith src des => exact hP.bith _ _ hA hc h
  | bitw src des => exact hP.bitw _ _ hA hc h
  | cvrw src des => exact hP.cvrw _ _ hA hc h
  | reti => exact hP.reti hc h
  | call src => exact hP.call _ hA hc h
  | cvlw src des => exact hP.cvlw _ _ hA hc h
  | wait => exact hP.wait hc h
  | jmp src => exact hP.jmp _ hA hc h
  | mova src des => exact hP.mova _ _ hA hc h
  | ret => exact hP.ret hc h
  | retp src => exact hP.retp _ hA hc h

/-- What every instruction keeps, whatever registers it writes. -/
theorem Keeps.execAll {i : Instr} (hK : Keeps (fun _ => True) P i) {s : State} (h : P s) : NextHas P (Machine.exec i s) :=
  hK.exec (fun _ _ _ _ => trivial) (fun _ => trivial) h

end Sys2Proof.Machine
end

