-- ==== Sys2Proof/Laws/Results.lean ====
section
/-! SUPPORT. From what an instruction computes to what it does: the frame of its operands and of its store, and the end
of its step where nothing is taken, for each shape of instruction. -/

namespace Sys2Proof.Machine

open Sys2Proof

/-! ## Frames of the parts -/

theorem evalRef_sp {role : Role} {len : Nat} {sp0 w : Word} {r : Ref} {l : Loc} {s t : State}
    (h : evalRef role len sp0 w r s = .ok l t) (hr : r ≠ .stk ∨ role ≠ .src) : t.sp = s.sp := by
  have hP : Reads (fun _ => True) False (fun u => u.sp = s.sp) :=
    ⟨fun _ _ e h => (letAgents_frame e).sp.trans h, fun _ _ _ _ h => h, fun _ _ b => b.elim⟩
  exact (hP.evalRef role len sp0 w r (fun _ _ => trivial)
    (fun e f => hr.elim (fun g => g e) (fun g => g f)) rfl).of_ok h

theorem State.reg_setReg_other {s : State} {m n : Fin 16} (v : Word) (h : m ≠ n) : (s.setReg m v).reg n = s.reg n := by
  rw [State.reg_setReg, if_neg (fun e => h e.symm)]

theorem evalRef_regs {role : Role} {len : Nat} {sp0 w : Word} {r : Ref} {l : Loc} {s t : State}
    (h : evalRef role len sp0 w r s = .ok l t) {n : Fin 16} (hn : Ref.moves n r = false) : t.reg n = s.reg n := by
  have hP : Reads (fun m => m ≠ n) True (fun u => u.reg n = s.reg n) :=
    ⟨fun u v e h => by
        have hu : v.regs = u.regs := (letAgents_frame e).regs
        unfold State.reg at h ⊢
        rw [hu]; exact h,
      fun _ _ v hm h => (State.reg_setReg_other v hm).trans h, fun _ _ _ h => h⟩
  exact (hP.evalRef role len sp0 w r (fun m hm e => by subst e; rw [hn] at hm; cases hm) (fun _ _ => trivial)
    rfl).of_ok h

/-- A reference to be modified, looked at or taken as an address never becomes a push. -/
theorem evalRef_push {role : Role} {len : Nat} {sp0 w : Word} {r : Ref} {s t : State}
    (h : evalRef role len sp0 w r s = .ok .push t) : r = .stk ∧ role = .write := by
  cases r with
  | lit k => unfold evalRef at h; dsimp only at h; split at h <;> cases h
  | imm v => unfold evalRef at h; dsimp only at h; split at h <;> cases h
  | reg n => cases h
  | ind n => cases h
  | autoSkip m => cases h
  | autoInc m => cases h
  | autoIncInd m =>
    obtain ⟨l', u, h1, h2⟩ := Flow.bind_eq_ok.1 h
    obtain ⟨_, rfl⟩ := pointer_loc h1
    cases h2
  | autoDec m => cases h
  | offB n o => cases (atSum_eq_ok h).2
  | offH n o => cases (atSum_eq_ok h).2
  | offW n o => cases (atSum_eq_ok h).2
  | offInd n o => obtain ⟨_, e⟩ := throughSum_loc h; cases e
  | pcB o => cases (atSum_eq_ok h).2
  | pcH o => cases (atSum_eq_ok h).2
  | pcW o => cases (atSum_eq_ok h).2
  | pcInd o => obtain ⟨_, e⟩ := throughSum_loc h; cases e
  | spB o => cases (atSum_eq_ok h).2
  | spH o => cases (atSum_eq_ok h).2
  | spW o => cases (atSum_eq_ok h).2
  | spInd o => obtain ⟨_, e⟩ := throughSum_loc h; cases e
  | dirB a => cases h
  | dirH a => cases h
  | dirW a => cases h
  | dirInd a => obtain ⟨_, e⟩ := pointer_loc h; cases e
  | stk =>
    cases role with
    | src => obtain ⟨l', u, _, h2⟩ := Flow.bind_eq_ok.1 h; cases h2
    | modify => cases h
    | write => exact ⟨rfl, rfl⟩
    | look => cases h
    | address => cases h
  | illegal b => cases h
  | missing n => simp only [evalRef, missingBytes] at h; split at h <;> cases h

/-- What evaluating both references may change, with SP and the registers named. -/
theorem evalBoth_parts {ts td : OpType} {role : Role} {src des : Ref} {s t : State} {l₁ l₂ : Loc} (hrole : role ≠ .src)
    (h : evalBoth ts td role src des s = .ok (l₁, l₂) t) :
    (src ≠ .stk → t.sp = s.sp) ∧
      (∀ n, Ref.moves n src = false → Ref.moves n des = false → t.reg n = s.reg n) ∧
      (∀ n, l₂ = .reg n → des = .reg n) ∧ (l₂ = .push → des = .stk ∧ role = .write) := by
  unfold evalBoth at h
  obtain ⟨l₁', s₁, h1, h2⟩ := Flow.bind_eq_ok.1 h
  obtain ⟨l₂', s₂, h3, h4⟩ := Flow.bind_eq_ok.1 h2
  cases h4
  replace h3 := (evalSecond_eq_ok.1 h3).2
  refine ⟨fun hs => ?_, fun n a b => ?_, fun n e => ?_, fun e => ?_⟩
  · rw [evalRef_sp h3 (.inr hrole), evalRef_sp h1 (.inl hs)]
  · rw [evalRef_regs h3 b, evalRef_regs h1 a]
  · subst e; exact evalRef_reg h3
  · subst e; exact evalRef_push h3

theorem writeReg_other {t : OpType} {m n : Fin 16} {v : BitVec t.bits} {s : State}
    (h : Ref.stores (.dest t) n (.reg m) = false) : (writeReg t m v s).reg n = s.reg n := by
  cases t with
  | b => exact State.reg_setReg_other _ (by simpa [Ref.stores] using h)
  | h => exact State.reg_setReg_other _ (by simpa [Ref.stores] using h)
  | w => exact State.reg_setReg_other _ (by simpa [Ref.stores] using h)
  | r => exact State.reg_setReg_other _ (by simpa [Ref.stores] using h)
  | l =>
    simp only [Ref.stores, Bool.or_eq_false_iff, beq_eq_false_iff_ne, Bool.and_eq_false_iff] at h
    have h2 : m + 1 ≠ n := by rcases h.2 with e | e; exact absurd rfl e; exact e
    exact (State.reg_setReg_other _ h2).trans (State.reg_setReg_other _ h.1)

theorem writeReg_sp {t : OpType} {m : Fin 16} {v : BitVec t.bits} {s : State} : (writeReg t m v s).sp = s.sp := by
  cases t <;> rfl

theorem writeReg_mem {t : OpType} {m : Fin 16} {v : BitVec t.bits} {s : State} : (writeReg t m v s).mem = s.mem := by
  cases t <;> rfl

/-- What storing a result undisturbed changes: the registers it is stored through, SP for a push, and the bytes
stored. -/
theorem writeLoc_parts {t : OpType} {l : Loc} {v : BitVec t.bits} {s s' : State} {u : Unit} (hb : s.bus = [])
    (h : writeLoc t l v s = .ok u s') :
    (l ≠ .push → s'.sp = s.sp) ∧
      (∀ n, (∀ m, l = .reg m → Ref.stores (.dest t) n (.reg m) = false) → s'.reg n = s.reg n) ∧
      (s.mem.wf = true → ∀ x, ¬ storesByte t l s'.sp x → s'.mem.read x = s.mem.read x) := by
  cases l with
  | lit k => cases h; exact ⟨fun _ => rfl, fun _ _ => rfl, fun _ _ _ => rfl⟩
  | imm k => cases h; exact ⟨fun _ => rfl, fun _ _ => rfl, fun _ _ _ => rfl⟩
  | reg m =>
    cases h
    exact ⟨fun _ => writeReg_sp, fun n hn => writeReg_other (hn m rfl), fun _ _ _ => by rw [writeReg_mem]⟩
  | mem a =>
    obtain ⟨_, rfl⟩ := (storeN_eq_ok hb).1 h
    refine ⟨fun _ => rfl, fun _ _ => rfl, fun hw x hx => ?_⟩
    have hx' : ¬ (a.toNat ≤ x ∧ x < a.toNat + t.len) := hx
    exact Memory.read_writeN_other _ _ _ _ hw (by omega)
  | push =>
    obtain ⟨_, rfl⟩ := (pushN_eq_ok hb).1 h
    refine ⟨fun e => absurd rfl e, fun _ _ => rfl, fun hw x hx => ?_⟩
    have hx' : ¬ ((s.sp - BitVec.ofNat 32 t.len).toNat ≤ x ∧ x < (s.sp - BitVec.ofNat 32 t.len).toNat + t.len) := hx
    exact Memory.read_writeN_other t.len (m := s.mem) _ _ _ hw (by omega)

/-! ## The end of the step -/

/-- What is selected depends on the channels, TR, the latched error, the enable registers and PS only. -/
theorem asyncNumber_congr {s t : State} (hps : t.ps = s.ps) (htr : t.tr = s.tr) (hce : t.ceLatch = s.ceLatch)
    (hin : t.inp = s.inp) (hout : t.out = s.out) (hoe : t.oe = s.oe) (hie : t.ie = s.ie) (hcfg : t.cfg = s.cfg) :
    asyncNumber t = asyncNumber s := by
  unfold asyncNumber asyncConditions outputReady inputReady inputError State.outPort State.inPort
  simp only [hps, htr, hce, hin, hout, hoe, hie, hcfg]

/-- The end of a step where nothing waits. -/
theorem boundary_settled {d : Done} {w : Word} {s : State} (hs : s.Settled) (hc : completion d s = none) :
    boundary d w s = .next s := boundary_none hc hs.2.1 hs.2.2.1 hs.2.2.2

/-- Going on at another pc leaves nothing waiting where nothing waited. -/
theorem State.Settled.onward {s : State} (h : s.Settled) (pc0 next : Word) : (s.onward pc0 next).Settled :=
  ⟨h.1, h.2.1, h.2.2.1, (asyncNumber_congr rfl rfl rfl rfl rfl rfl rfl rfl).trans h.2.2.2⟩

/-- Nothing is signalled by `sig` under PS `p`. -/
def quietSignal (sig : Signal) (p : PsReg) : Bool :=
  match sig.fp with
  | none => !(sig.integerOverflow && p.eIV && p.eIE)
  | some (.inexact, _) => !(sig.integerOverflow && p.eIV && p.eIE) && !(p.eIIX && p.eIE)
  | some (.underflow, _) => false
  | some (.overflow, _) => false

theorem completion_quiet {d : Done} {t : State} (hsp : d.wroteSp = true → 2048 ≤ t.sp.toNat)
    (hq : quietSignal d.sig t.ps = true) : completion d t = none := by
  unfold completion
  rw [if_neg (by
    intro h
    simp only [Bool.and_eq_true, decide_eq_true_eq] at h
    have := hsp h.1
    omega)]
  unfold quietSignal at hq
  revert hq
  rcases d.sig.fp with _ | ⟨k, f⟩
  · intro hq
    simp only [Bool.not_eq_true'] at hq
    dsimp only
    rw [hq]; rfl
  · cases k
    · intro hq; simp at hq
    · intro hq; simp at hq
    · intro hq
      simp only [Bool.and_eq_true, Bool.not_eq_true'] at hq
      dsimp only
      rw [hq.1, hq.2]; rfl

/-! ## Shapes -/

/-- Where an instruction goes on, SP and PS are as it left them. -/
theorem State.goesOn_same (t : State) (i : Instr) (s : State) :
    (t.goesOn i s).sp = t.sp ∧ (t.goesOn i s).ps = t.ps := by
  unfold State.goesOn
  split <;> exact ⟨rfl, rfl⟩

/-- Where an instruction goes on, nothing comes to wait. -/
theorem State.Settled.goesOn {t : State} (h : t.Settled) (i : Instr) (s : State) : (t.goesOn i s).Settled := by
  unfold State.goesOn
  split
  · exact h.onward _ _
  · obtain ⟨h1, h2, h3, h4⟩ := h.onward s.pc s.pc
    exact ⟨h1, h2, h3, (asyncNumber_congr rfl rfl rfl rfl rfl rfl rfl rfl).trans h4⟩

/-- The end of an instruction that stored its result and goes on. -/
theorem finish_onward {i : Instr} {s s₂ : State} {q : PsReg} {sig : Signal} {wrote : Bool}
    (hs : (s₂.withPs q).Settled) (hsp : wrote = true → 2048 ≤ s₂.sp.toNat) (hq : quietSignal sig q = true) :
    finish s.counting s.pc (.ok { Done.plain (pcNext i s) wrote with sig := sig } { s₂ with ps := q }) =
      .next ((s₂.withPs q).goesOn i s) := by
  obtain ⟨e1, e2⟩ := State.goesOn_same (s₂.withPs q) i s
  rw [show ({ s₂ with ps := q } : State) = s₂.withPs q from rfl, finish_goesOn (i := i) hs.1 rfl rfl rfl rfl]
  exact boundary_settled (hs.goesOn i s) (completion_quiet (by rw [e1]; exact hsp) (by rw [e2]; exact hq))

/-- The frame of an instruction whose references were evaluated and whose result was stored undisturbed. -/
theorem framed_of {td : OpType} {src des : Ref} {l : Loc} {s s₁ s₂ : State} {q : PsReg} {v : BitVec td.bits}
    {pc0 next : Word} {ts : OpType} {role : Role} {l₁ : Loc} {u : Unit} (hb : s.bus = []) (hrole : role ≠ .src)
    (h : evalBoth ts td role src des s = .ok (l₁, l) s₁) (hw : writeLoc td l v s₁ = .ok u s₂) :
    Framed td src des l s ((s₂.withPs q).onward pc0 next) := by
  obtain ⟨hsp, hreg, hl, _⟩ := evalBoth_parts hrole h
  have e1 := evalBoth_frame hb hrole h
  have hb1 : s₁.bus = [] := by rw [e1]; exact hb
  obtain ⟨wsp, wreg, wmem⟩ := writeLoc_parts hb1 hw
  have e2 := writeLoc_frame hb1 hw
  refine ⟨?_, fun a b => ?_, fun n a b c => ?_, fun m x hx => ?_⟩
  · rw [e2, e1]; exact ⟨rfl, rfl, rfl, rfl, rfl, rfl, rfl, rfl, rfl, rfl, rfl, rfl, rfl, rfl, rfl, rfl, rfl, rfl⟩
  · exact (wsp b).trans (hsp a)
  · refine (wreg n fun m e => ?_).trans (hreg n a b)
    rw [hl m e] at c; exact c
  · have em : s₁.mem = s.mem := by rw [e1]
    have := wmem (by rw [em]; exact m) x hx
    exact this.trans (by rw [em])

/-- Operands read undisturbed leave the state their references left. -/
theorem readLoc_same {ts td : OpType} {role : Role} {src des : Ref} {s s₁ s₂ : State} {l : Loc × Loc} {t : OpType}
    {l' : Loc} {a : BitVec t.bits} (hb : s.bus = []) (hrole : role ≠ .src)
    (he : evalBoth ts td role src des s = .ok l s₁) (ha : readLoc t l' s₁ = .ok a s₂) : s₂ = s₁ ∧ s₁.bus = [] := by
  have hb1 : s₁.bus = [] := by rw [evalBoth_frame hb hrole he]; exact hb
  exact ⟨readLoc_state hb1 ha, hb1⟩

/-- A modifying instruction whose computation ends well does what `Modifies` says. -/
theorem Modifies.of {ts td : OpType} {mk : Ref → Ref → Instr} {ready : State → BitVec ts.bits → BitVec td.bits → Prop}
    {value : State → BitVec ts.bits → BitVec td.bits → BitVec td.bits}
    {status : State → BitVec ts.bits → BitVec td.bits → PsReg}
    (op : State → BitVec ts.bits → BitVec td.bits → Calc td.bits)
    (hexec : ∀ src des s, exec (mk src des) s = runPlain (mk src des) (modifyBody ts td (op s) src des) s)
    (hop : ∀ s a b, ready s a b → ∃ sig, op s a b = .done (value s a b) (status s a b) sig 0 ∧
      quietSignal sig (status s a b) = true) :
    Modifies ts td mk ready value status := by
  intro src des s s₁ s₂ s₃ s₄ l₁ l₂ a b hrep he ha hb hr hw hset hsp
  obtain ⟨sig, ho, hsig⟩ := hop s a b hr
  constructor
  · rw [hexec, runPlain_runs hrep]
    unfold modifyBody
    rw [Flow.bind_of_ok _ he]
    dsimp only
    rw [Flow.bind_of_ok _ ha, Flow.bind_of_ok _ hb, ho, settle_done (u := ()) (t := s₄) hw]
    exact finish_onward hset (fun h => hsp (by simpa [popsStack] using h)) hsig
  · intro hbus
    obtain ⟨rfl, hb1⟩ := readLoc_same hbus (by decide) he ha
    obtain rfl := readLoc_state hb1 hb
    exact framed_of hbus (by decide) he hw

/-- A writing instruction whose computation ends well does what `Writes` says. -/
theorem Writes.of {ts td : OpType} {mk : Ref → Ref → Instr} {ready : State → BitVec ts.bits → Prop}
    {value : State → BitVec ts.bits → BitVec td.bits} {status : State → BitVec ts.bits → PsReg}
    (op : State → BitVec ts.bits → Calc td.bits)
    (hexec : ∀ src des s, exec (mk src des) s = runPlain (mk src des) (writeBody ts td (op s) src des) s)
    (hop : ∀ s a, ready s a → ∃ sig, op s a = .done (value s a) (status s a) sig 0 ∧
      quietSignal sig (status s a) = true) :
    Writes ts td mk ready value status := by
  intro src des s s₁ s₂ s₄ l₁ l₂ a hrep he ha hr hw hset hsp
  obtain ⟨sig, ho, hsig⟩ := hop s a hr
  constructor
  · rw [hexec, runPlain_runs hrep]
    unfold writeBody
    rw [Flow.bind_of_ok _ he]
    dsimp only
    rw [Flow.bind_of_ok _ ha, ho, settle_done (u := ()) (t := s₄) hw]
    exact finish_onward hset (fun h => hsp (by simpa [popsStack] using h)) hsig
  · intro hbus
    obtain ⟨rfl, -⟩ := readLoc_same hbus (by decide) he ha
    exact framed_of hbus (by decide) he hw

/-- A comparing instruction does what `Compares` says. -/
theorem Compares.of {t : OpType} {mk : Ref → Ref → Instr} {status : State → BitVec t.bits → BitVec t.bits → PsReg}
    (hexec : ∀ src des s, exec (mk src des) s = runPlain (mk src des) (flagsBody t (status s) src des) s) :
    Compares t mk status := by
  intro src des s s₁ s₂ s₃ l₁ l₂ a b hrep he ha hb hset hsp
  constructor
  · rw [hexec, runPlain_runs hrep]
    unfold flagsBody lookBody
    rw [Flow.bind_of_ok _ he]
    dsimp only
    rw [Flow.bind_of_ok _ ha, Flow.bind_of_ok _ hb]
    have e : Done.plain (pcNext (mk src des) s) (popsStack src) =
        { Done.plain (pcNext (mk src des) s) (popsStack src) with sig := .none } := rfl
    rw [e]
    exact finish_onward hset (fun h => hsp (by simpa [popsStack] using h)) rfl
  · intro hbus
    obtain ⟨rfl, hb1⟩ := readLoc_same hbus (by decide) he ha
    obtain rfl := readLoc_state hb1 hb
    obtain ⟨hs, hreg, _, _⟩ := evalBoth_parts (by decide) he
    have e1 := evalBoth_frame hbus (by decide) he
    refine ⟨?_, hs, hreg, ?_⟩
    · rw [e1]; exact ⟨rfl, rfl, rfl, rfl, rfl, rfl, rfl, rfl, rfl, rfl, rfl, rfl, rfl, rfl, rfl, rfl, rfl, rfl⟩
    · rw [e1]; rfl

/-- Raising with FR written or not. -/
theorem settle_raises {td : OpType} {l : Loc} {d : Done} {n : Nat} {ps : PsReg} {fr : Option FrFields} {s : State} :
    settle td l d (.raise n ps fr) s = .trap n s.pc ((s.withPs ps).withFr fr) := by
  cases fr <;> rfl

theorem ModifyRaises.of {ts td : OpType} {mk : Ref → Ref → Instr} {n : Nat}
    {when : State → BitVec ts.bits → BitVec td.bits → Prop} {status : State → BitVec ts.bits → BitVec td.bits → PsReg}
    {fr : BitVec ts.bits → BitVec td.bits → Option FrFields}
    (op : State → BitVec ts.bits → BitVec td.bits → Calc td.bits)
    (hexec : ∀ src des s, exec (mk src des) s = runPlain (mk src des) (modifyBody ts td (op s) src des) s)
    (hop : ∀ s a b, when s a b → op s a b = .raise n (status s a b) (fr a b)) :
    ModifyRaises ts td mk n when status fr := by
  intro src des s s₁ s₂ s₃ l₁ l₂ a b hq he ha hb hr
  rw [hexec, runPlain_runs hq]
  unfold modifyBody
  rw [Flow.bind_of_ok _ he]
  dsimp only
  rw [Flow.bind_of_ok _ ha, Flow.bind_of_ok _ hb, hop s a b hr, settle_raises, finish_trap]
  have e : s₃.pc = s.pc :=
    (((evalBoth_control (by decide) he).trans (readLoc_control ha)).trans (readLoc_control hb)).pc
  rw [e]; rfl

theorem WriteRaises.of {ts td : OpType} {mk : Ref → Ref → Instr} {n : Nat} {when : State → BitVec ts.bits → Prop}
    {status : State → BitVec ts.bits → PsReg} {fr : BitVec ts.bits → Option FrFields}
    (op : State → BitVec ts.bits → Calc td.bits)
    (hexec : ∀ src des s, exec (mk src des) s = runPlain (mk src des) (writeBody ts td (op s) src des) s)
    (hop : ∀ s a, when s a → op s a = .raise n (status s a) (fr a)) :
    WriteRaises ts td mk n when status fr := by
  intro src des s s₁ s₂ l₁ l₂ a hq he ha hr
  rw [hexec, runPlain_runs hq]
  unfold writeBody
  rw [Flow.bind_of_ok _ he]
  dsimp only
  rw [Flow.bind_of_ok _ ha, hop s a hr, settle_raises, finish_trap]
  have e : s₂.pc = s.pc := ((evalBoth_control (by decide) he).trans (readLoc_control ha)).pc
  rw [e]; rfl

/-- What a completed instruction signals first, if it left SP alone or high enough (R498 item 2). -/
theorem completion_signal {d : Done} {t : State} (hsp : d.wroteSp = true → 2048 ≤ t.sp.toNat) :
    completion d t =
      match d.sig.fp with
      | some (.underflow, f) => some (6, some f)
      | some (.overflow, f) => some (8, some f)
      | some (.inexact, f) =>
        if d.sig.integerOverflow && t.ps.eIV && t.ps.eIE then some (3, none)
        else if t.ps.eIIX && t.ps.eIE then some (5, some f)
        else none
      | none => if d.sig.integerOverflow && t.ps.eIV && t.ps.eIE then some (3, none) else none := by
  unfold completion
  exact if_neg (by
    intro h
    simp only [Bool.and_eq_true, decide_eq_true_eq] at h
    have := hsp h.1
    omega)

/-- The exception a signal stands for under PS `p` (R306, R498 item 2). -/
def signalled (sig : Signal) (p : PsReg) : Option (Nat × Option FrFields) :=
  match sig.fp with
  | some (.underflow, f) => some (6, some f)
  | some (.overflow, f) => some (8, some f)
  | some (.inexact, f) =>
    if sig.integerOverflow && p.eIV && p.eIE then some (3, none)
    else if p.eIIX && p.eIE then some (5, some f)
    else none
  | none => if sig.integerOverflow && p.eIV && p.eIE then some (3, none) else none

theorem finish_signal {i : Instr} {s s₂ : State} {q : PsReg} {sig : Signal} {wrote : Bool} {n : Nat}
    {fr : Option FrFields} (hb : s₂.bus = []) (hsp : wrote = true → 2048 ≤ s₂.sp.toNat)
    (hq : signalled sig q = some (n, fr)) :
    finish s.counting s.pc (.ok { Done.plain (pcNext i s) wrote with sig := sig } { s₂ with ps := q }) =
      takes n s.pc (((s₂.withPs q).goesOn i s).withFr fr) := by
  obtain ⟨e1, e2⟩ := State.goesOn_same (s₂.withPs q) i s
  rw [show ({ s₂ with ps := q } : State) = s₂.withPs q from rfl, finish_goesOn (i := i) (t := s₂.withPs q) hb rfl rfl rfl rfl]
  unfold boundary
  have hc : completion { Done.plain (pcNext i s) wrote with sig := sig } ((s₂.withPs q).goesOn i s) = some (n, fr) := by
    rw [completion_signal (by rw [e1]; exact hsp), e2]
    exact hq
  rw [hc]
  cases fr <;> rfl

theorem ModifySignals.of {ts td : OpType} {mk : Ref → Ref → Instr} {n : Nat}
    {when : State → BitVec ts.bits → BitVec td.bits → Prop}
    {value : State → BitVec ts.bits → BitVec td.bits → BitVec td.bits}
    {status : State → BitVec ts.bits → BitVec td.bits → PsReg}
    {fr : BitVec ts.bits → BitVec td.bits → Option FrFields}
    (op : State → BitVec ts.bits → BitVec td.bits → Calc td.bits)
    (hexec : ∀ src des s, exec (mk src des) s = runPlain (mk src des) (modifyBody ts td (op s) src des) s)
    (hop : ∀ s a b, when s a b → ∃ sig, op s a b = .done (value s a b) (status s a b) sig 0 ∧
      signalled sig (status s a b) = some (n, fr a b)) :
    ModifySignals ts td mk n when value status fr := by
  intro src des s s₁ s₂ s₃ s₄ l₁ l₂ a b hq he ha hb hr hw hbus hsp
  obtain ⟨sig, ho, hsig⟩ := hop s a b hr
  rw [hexec, runPlain_runs hq]
  unfold modifyBody
  rw [Flow.bind_of_ok _ he]
  dsimp only
  rw [Flow.bind_of_ok _ ha, Flow.bind_of_ok _ hb, ho, settle_done (u := ()) (t := s₄) hw]
  exact finish_signal hbus (fun h => hsp (by simpa [popsStack] using h)) hsig

theorem WriteSignals.of {ts td : OpType} {mk : Ref → Ref → Instr} {n : Nat} {when : State → BitVec ts.bits → Prop}
    {value : State → BitVec ts.bits → BitVec td.bits} {status : State → BitVec ts.bits → PsReg}
    {fr : BitVec ts.bits → Option FrFields} (op : State → BitVec ts.bits → Calc td.bits)
    (hexec : ∀ src des s, exec (mk src des) s = runPlain (mk src des) (writeBody ts td (op s) src des) s)
    (hop : ∀ s a, when s a → ∃ sig, op s a = .done (value s a) (status s a) sig 0 ∧
      signalled sig (status s a) = some (n, fr a)) :
    WriteSignals ts td mk n when value status fr := by
  intro src des s s₁ s₂ s₄ l₁ l₂ a hq he ha hr hw hbus hsp
  obtain ⟨sig, ho, hsig⟩ := hop s a hr
  rw [hexec, runPlain_runs hq]
  unfold writeBody
  rw [Flow.bind_of_ok _ he]
  dsimp only
  rw [Flow.bind_of_ok _ ha, ho, settle_done (u := ()) (t := s₄) hw]
  exact finish_signal hbus (fun h => hsp (by simpa [popsStack] using h)) hsig

/-! ## Fair runs -/

/-- A step of an agent that is not enabled changes nothing (46_io.md R450). -/
theorem agentStep_disabled {e : Event} {s : State} (h : e.enabled s = false)
    (he : (∀ p x bad, e ≠ .arrive p x bad) ∧ e ≠ .correctedEcc ∧ (∀ a n, e ≠ .uncorrectable a n) ∧
      (∀ k x, e ≠ .hostWrite k x) ∧ ∀ k, e ≠ .hostRead k) : agentStep e s = .next s := by
  cases e with
  | cpu => rfl
  | tick =>
    have : (s.tr == 0) = true := by simpa [Event.enabled, bne] using h
    unfold agentStep State.tick
    rw [if_pos this]
  | arrive p x bad => exact absurd rfl (he.1 p x bad)
  | store p => simp [agentStep, storeStep, show storeEnabled s p = false from h]
  | send p => simp [agentStep, sendStep, show sendEnabled s p = false from h]
  | broadcast =>
    unfold Event.enabled at h
    unfold agentStep broadcastStep
    cases hg : broadcastGroup s with
    | nil => rfl
    | cons i rest => simp only [hg] at h ⊢; rw [h]; rfl
  | deliver p =>
    have hl : (s.outPort p).link = [] := by simpa [Event.enabled] using h
    have hd : (s.outPort p).delivered = s.outPort p := by
      unfold OutPort.delivered
      rw [hl, List.tail_nil, ← hl]
    simp only [agentStep, hd]
    simp [State.setOut, State.outPort, Vector.get_eq_getElem, Vector.set_getElem_self]
  | correctedEcc => exact absurd rfl he.2.1
  | uncorrectable a n => exact absurd rfl (he.2.2.1 a n)
  | hostWrite k x => exact absurd rfl (he.2.2.2.1 k x)
  | hostRead k => exact absurd rfl (he.2.2.2.2 k)

/-- What fairness gives: from any point on an agent moves, or its step is not enabled (46_io.md R450). -/
theorem Schedule.Fair.moves_or_disabled {c : Schedule} {run : Nat → State} (h : c.Fair run) (e : Event) (n : Nat) :
    ∃ m, n ≤ m ∧ (c.Moves run m e ∨ e.enabled (run m) = false) := by
  by_cases hd : ∀ m, n ≤ m → e.enabled (run m) = true
  · obtain ⟨m, hm, hv⟩ := h e n hd
    exact ⟨m, hm, .inl hv⟩
  · push Not at hd
    obtain ⟨m, hm, hv⟩ := hd
    exact ⟨m, hm, .inr (by simpa using hv)⟩

end Sys2Proof.Machine
end

