-- ==== Sys2Proof/Laws/Shapes.lean ====
section
/-! SUPPORT. Every arm of `exec` is an ordinary instruction or a branch of the cycle around a body of its own. -/

namespace Sys2Proof.Machine

open Sys2Proof

/-- The arm of an instruction is `runPlain` of some body, or, for a branch, CALL or return, `runBranch` of one. -/
def Shaped (i : Instr) (s : State) : Prop :=
  if isBranch i then ∃ b, exec i s = runBranch i b s else ∃ b, exec i s = runPlain i b s

theorem shaped_plain {i : Instr} {s : State} (b : Word → State → Flow Done) (hi : isBranch i = false)
    (h : exec i s = runPlain i b s) : Shaped i s := by
  unfold Shaped; rw [hi]; exact ⟨b, h⟩

theorem shaped_branch {i : Instr} {s : State} (b : Word → Word → State → Flow Done) (hi : isBranch i = true)
    (h : exec i s = runBranch i b s) : Shaped i s := by
  unfold Shaped; rw [hi]; exact ⟨b, h⟩

/-- Every instruction has one of the two shapes. -/
theorem exec_shaped (i : Instr) (s : State) : Shaped i s := by
  cases i with
  | movb src des => exact shaped_plain _ rfl (by simp only [exec, execMovb]; rfl)
  | sftb src des => exact shaped_plain _ rfl (by simp only [exec, execSftb]; rfl)
  | movh src des => exact shaped_plain _ rfl (by simp only [exec, execMovh]; rfl)
  | sfth src des => exact shaped_plain _ rfl (by simp only [exec, execSfth]; rfl)
  | movw src des => exact shaped_plain _ rfl (by simp only [exec, execMovw]; rfl)
  | sftw src des => exact shaped_plain _ rfl (by simp only [exec, execSftw]; rfl)
  | movr src des => exact shaped_plain _ rfl (by simp only [exec, execMovr]; rfl)
  | cvbr src des => exact shaped_plain _ rfl (by simp only [exec, execCvbr]; rfl)
  | movl src des => exact shaped_plain _ rfl (by simp only [exec, execMovl]; rfl)
  | nop => exact shaped_plain _ rfl (by simp only [exec, execNop]; rfl)
  | bg src => exact shaped_branch _ rfl (by simp only [exec, execBg]; rfl)
  | negb src des => exact shaped_plain _ rfl (by simp only [exec, execNegb]; rfl)
  | sfab src des => exact shaped_plain _ rfl (by simp only [exec, execSfab]; rfl)
  | negh src des => exact shaped_plain _ rfl (by simp only [exec, execNegh]; rfl)
  | sfah src des => exact shaped_plain _ rfl (by simp only [exec, execSfah]; rfl)
  | negw src des => exact shaped_plain _ rfl (by simp only [exec, execNegw]; rfl)
  | sfaw src des => exact shaped_plain _ rfl (by simp only [exec, execSfaw]; rfl)
  | negr src des => exact shaped_plain _ rfl (by simp only [exec, execNegr]; rfl)
  | cvhr src des => exact shaped_plain _ rfl (by simp only [exec, execCvhr]; rfl)
  | negl src des => exact shaped_plain _ rfl (by simp only [exec, execNegl]; rfl)
  | clc => exact shaped_plain _ rfl (by simp only [exec, execClc]; rfl)
  | rep src => exact shaped_plain _ rfl (by simp only [exec, execRep]; rfl)
  | ble src => exact shaped_branch _ rfl (by simp only [exec, execBle]; rfl)
  | sbrb src des => exact shaped_plain _ rfl (by simp only [exec, execSbrb]; rfl)
  | rotb src des => exact shaped_plain _ rfl (by simp only [exec, execRotb]; rfl)
  | sbrh src des => exact shaped_plain _ rfl (by simp only [exec, execSbrh]; rfl)
  | roth src des => exact shaped_plain _ rfl (by simp only [exec, execRoth]; rfl)
  | sbrw src des => exact shaped_plain _ rfl (by simp only [exec, execSbrw]; rfl)
  | rotw src des => exact shaped_plain _ rfl (by simp only [exec, execRotw]; rfl)
  | sbrr src des => exact shaped_plain _ rfl (by simp only [exec, execSbrr]; rfl)
  | cvwr src des => exact shaped_plain _ rfl (by simp only [exec, execCvwr]; rfl)
  | sbrl src des => exact shaped_plain _ rfl (by simp only [exec, execSbrl]; rfl)
  | stc => exact shaped_plain _ rfl (by simp only [exec, execStc]; rfl)
  | repz src => exact shaped_plain _ rfl (by simp only [exec, execRepz]; rfl)
  | bgu src => exact shaped_branch _ rfl (by simp only [exec, execBgu]; rfl)
  | cmpb src des => exact shaped_plain _ rfl (by simp only [exec, execCmpb]; rfl)
  | ffob src des => exact shaped_plain _ rfl (by simp only [exec, execFfob]; rfl)
  | cmph src des => exact shaped_plain _ rfl (by simp only [exec, execCmph]; rfl)
  | ffoh src des => exact shaped_plain _ rfl (by simp only [exec, execFfoh]; rfl)
  | cmpw src des => exact shaped_plain _ rfl (by simp only [exec, execCmpw]; rfl)
  | ffow src des => exact shaped_plain _ rfl (by simp only [exec, execFfow]; rfl)
  | cmpr src des => exact shaped_plain _ rfl (by simp only [exec, execCmpr]; rfl)
  | cvlr src des => exact shaped_plain _ rfl (by simp only [exec, execCvlr]; rfl)
  | cmpl src des => exact shaped_plain _ rfl (by simp only [exec, execCmpl]; rfl)
  | cmc => exact shaped_plain _ rfl (by simp only [exec, execCmc]; rfl)
  | repnz src => exact shaped_plain _ rfl (by simp only [exec, execRepnz]; rfl)
  | bleu src => exact shaped_branch _ rfl (by simp only [exec, execBleu]; rfl)
  | addb src des => exact shaped_plain _ rfl (by simp only [exec, execAddb]; rfl)
  | andb src des => exact shaped_plain _ rfl (by simp only [exec, execAndb]; rfl)
  | addh src des => exact shaped_plain _ rfl (by simp only [exec, execAddh]; rfl)
  | andh src des => exact shaped_plain _ rfl (by simp only [exec, execAndh]; rfl)
  | addw src des => exact shaped_plain _ rfl (by simp only [exec, execAddw]; rfl)
  | andw src des => exact shaped_plain _ rfl (by simp only [exec, execAndw]; rfl)
  | addr src des => exact shaped_plain _ rfl (by simp only [exec, execAddr]; rfl)
  | cvbl src des => exact shaped_plain _ rfl (by simp only [exec, execCvbl]; rfl)
  | addl src des => exact shaped_plain _ rfl (by simp only [exec, execAddl]; rfl)
  | eron => exact shaped_plain _ rfl (by simp only [exec, execEron]; rfl)
  | trap src => exact shaped_plain _ rfl (by simp only [exec, execTrap]; rfl)
  | bge src => exact shaped_branch _ rfl (by simp only [exec, execBge]; rfl)
  | adcb src des => exact shaped_plain _ rfl (by simp only [exec, execAdcb]; rfl)
  | orb src des => exact shaped_plain _ rfl (by simp only [exec, execOrb]; rfl)
  | adch src des => exact shaped_plain _ rfl (by simp only [exec, execAdch]; rfl)
  | orh src des => exact shaped_plain _ rfl (by simp only [exec, execOrh]; rfl)
  | adcw src des => exact shaped_plain _ rfl (by simp only [exec, execAdcw]; rfl)
  | orw src des => exact shaped_plain _ rfl (by simp only [exec, execOrw]; rfl)
  | sqtr src des => exact shaped_plain _ rfl (by simp only [exec, execSqtr]; rfl)
  | cvhl src des => exact shaped_plain _ rfl (by simp only [exec, execCvhl]; rfl)
  | sqtl src des => exact shaped_plain _ rfl (by simp only [exec, execSqtl]; rfl)
  | erof => exact shaped_plain _ rfl (by simp only [exec, execErof]; rfl)
  | bl src => exact shaped_branch _ rfl (by simp only [exec, execBl]; rfl)
  | subb src des => exact shaped_plain _ rfl (by simp only [exec, execSubb]; rfl)
  | xorb src des => exact shaped_plain _ rfl (by simp only [exec, execXorb]; rfl)
  | subh src des => exact shaped_plain _ rfl (by simp only [exec, execSubh]; rfl)
  | xorh src des => exact shaped_plain _ rfl (by simp only [exec, execXorh]; rfl)
  | subw src des => exact shaped_plain _ rfl (by simp only [exec, execSubw]; rfl)
  | xorw src des => exact shaped_plain _ rfl (by simp only [exec, execXorw]; rfl)
  | subr src des => exact shaped_plain _ rfl (by simp only [exec, execSubr]; rfl)
  | cvwl src des => exact shaped_plain _ rfl (by simp only [exec, execCvwl]; rfl)
  | subl src des => exact shaped_plain _ rfl (by simp only [exec, execSubl]; rfl)
  | bkpt => exact shaped_plain _ rfl (by simp only [exec, execBkpt]; rfl)
  | bgeu src => exact shaped_branch _ rfl (by simp only [exec, execBgeu]; rfl)
  | sbbb src des => exact shaped_plain _ rfl (by simp only [exec, execSbbb]; rfl)
  | notb src des => exact shaped_plain _ rfl (by simp only [exec, execNotb]; rfl)
  | sbbh src des => exact shaped_plain _ rfl (by simp only [exec, execSbbh]; rfl)
  | noth src des => exact shaped_plain _ rfl (by simp only [exec, execNoth]; rfl)
  | sbbw src des => exact shaped_plain _ rfl (by simp only [exec, execSbbw]; rfl)
  | notw src des => exact shaped_plain _ rfl (by simp only [exec, execNotw]; rfl)
  | sgnr src des => exact shaped_plain _ rfl (by simp only [exec, execSgnr]; rfl)
  | cvrl src des => exact shaped_plain _ rfl (by simp only [exec, execCvrl]; rfl)
  | sgnl src des => exact shaped_plain _ rfl (by simp only [exec, execSgnl]; rfl)
  | rset => exact shaped_plain _ rfl (by simp only [exec, execRset]; rfl)
  | blu src => exact shaped_branch _ rfl (by simp only [exec, execBlu]; rfl)
  | mulb src des => exact shaped_plain _ rfl (by simp only [exec, execMulb]; rfl)
  | adcd src des => exact shaped_plain _ rfl (by simp only [exec, execAdcd]; rfl)
  | mulh src des => exact shaped_plain _ rfl (by simp only [exec, execMulh]; rfl)
  | mulw src des => exact shaped_plain _ rfl (by simp only [exec, execMulw]; rfl)
  | ldpr src des => exact shaped_plain _ rfl (by simp only [exec, execLdpr]; rfl)
  | mulr src des => exact shaped_plain _ rfl (by simp only [exec, execMulr]; rfl)
  | cvbw src des => exact shaped_plain _ rfl (by simp only [exec, execCvbw]; rfl)
  | mull src des => exact shaped_plain _ rfl (by simp only [exec, execMull]; rfl)
  | ei => exact shaped_plain _ rfl (by simp only [exec, execEi]; rfl)
  | bne src => exact shaped_branch _ rfl (by simp only [exec, execBne]; rfl)
  | dvrb src des => exact shaped_plain _ rfl (by simp only [exec, execDvrb]; rfl)
  | sbbd src des => exact shaped_plain _ rfl (by simp only [exec, execSbbd]; rfl)
  | dvrh src des => exact shaped_plain _ rfl (by simp only [exec, execDvrh]; rfl)
  | dvrw src des => exact shaped_plain _ rfl (by simp only [exec, execDvrw]; rfl)
  | stpr src des => exact shaped_plain _ rfl (by simp only [exec, execStpr]; rfl)
  | dvrr src des => exact shaped_plain _ rfl (by simp only [exec, execDvrr]; rfl)
  | cvhw src des => exact shaped_plain _ rfl (by simp only [exec, execCvhw]; rfl)
  | dvrl src des => exact shaped_plain _ rfl (by simp only [exec, execDvrl]; rfl)
  | di => exact shaped_plain _ rfl (by simp only [exec, execDi]; rfl)
  | be src => exact shaped_branch _ rfl (by simp only [exec, execBe]; rfl)
  | remb src des => exact shaped_plain _ rfl (by simp only [exec, execRemb]; rfl)
  | remh src des => exact shaped_plain _ rfl (by simp only [exec, execRemh]; rfl)
  | remw src des => exact shaped_plain _ rfl (by simp only [exec, execRemw]; rfl)
  | lcnt src des => exact shaped_plain _ rfl (by simp only [exec, execLcnt]; rfl)
  | remr src des => exact shaped_plain _ rfl (by simp only [exec, execRemr]; rfl)
  | cvwb src des => exact shaped_plain _ rfl (by simp only [exec, execCvwb]; rfl)
  | reml src des => exact shaped_plain _ rfl (by simp only [exec, execReml]; rfl)
  | bnv src => exact shaped_branch _ rfl (by simp only [exec, execBnv]; rfl)
  | divb src des => exact shaped_plain _ rfl (by simp only [exec, execDivb]; rfl)
  | divh src des => exact shaped_plain _ rfl (by simp only [exec, execDivh]; rfl)
  | divw src des => exact shaped_plain _ rfl (by simp only [exec, execDivw]; rfl)
  | lptr src des => exact shaped_plain _ rfl (by simp only [exec, execLptr]; rfl)
  | divr src des => exact shaped_plain _ rfl (by simp only [exec, execDivr]; rfl)
  | cvwh src des => exact shaped_plain _ rfl (by simp only [exec, execCvwh]; rfl)
  | divl src des => exact shaped_plain _ rfl (by simp only [exec, execDivl]; rfl)
  | bv src => exact shaped_branch _ rfl (by simp only [exec, execBv]; rfl)
  | bitb src des => exact shaped_plain _ rfl (by simp only [exec, execBitb]; rfl)
  | bith src des => exact shaped_plain _ rfl (by simp only [exec, execBith]; rfl)
  | bitw src des => exact shaped_plain _ rfl (by simp only [exec, execBitw]; rfl)
  | bcnt src des => exact shaped_plain _ rfl (by simp only [exec, execBcnt]; rfl)
  | cvrw src des => exact shaped_plain _ rfl (by simp only [exec, execCvrw]; rfl)
  | reti => exact shaped_plain _ rfl (by simp only [exec, execReti]; rfl)
  | call src => exact shaped_branch _ rfl (by simp only [exec, execCall]; rfl)
  | bptr src des => exact shaped_plain _ rfl (by simp only [exec, execBptr]; rfl)
  | cvlw src des => exact shaped_plain _ rfl (by simp only [exec, execCvlw]; rfl)
  | wait => exact shaped_plain _ rfl (by simp only [exec, execWait]; rfl)
  | jmp src => exact shaped_branch _ rfl (by simp only [exec, execJmp]; rfl)
  | mova src des => exact shaped_plain _ rfl (by simp only [exec, execMova]; rfl)
  | ret => exact shaped_branch _ rfl (by simp only [exec, execRet]; rfl)
  | retp src => exact shaped_branch _ rfl (by simp only [exec, execRetp]; rfl)

end Sys2Proof.Machine
end

