-- ==== Sys2Proof/Machine/Platform.lean ====
section
/-! DEFINITION. The machine around one node as data (61_system_platform.md): node numbers and wiring of the array, the
address and I/O maps, the registers and the interrupt vectors of the System Control Board, and the mapping aids. Nothing here is
reached from `step`: a node sees its neighbours and its host as the agents of Machine/Agents.lean. -/

namespace Sys2Proof.Machine

open Sys2Proof

/-! ## The array -/

/-- The ID of node `n` of array board `board` (R544). -/
def nodeId (board : BitVec 4) (n : BitVec 6) : BitVec 10 := board ++ n

/-- The neighbour of node `x` across dimension `d` (R541). -/
def neighbour (x d : Nat) : Nat := x ^^^ 2 ^ d

/-- The nodes joined to node `x` of an order-`order` cube (R541). -/
def neighbours (order x : Nat) : List Nat := (List.range order).map (neighbour x)

/-- Where output channel `d` of node `x` leads: input channel `d` of the neighbour across dimension `d`, and nowhere
for a channel at or above the order or for the host channel (R545, `PORT_WIRING`). -/
def peer (order x : Nat) (d : Fin 11) : Option (Nat × Fin 11) :=
  if d.val < 10 ∧ d.val < order then some (neighbour x d.val, d) else none

/-- A link of the array: what output channel `fromPort` of node `fromNode` sends reaches input channel `toPort` of node
`toNode`, the nodes by their places in the cube. -/
structure Link where
  fromNode : Nat
  fromPort : Fin 11
  toNode : Nat
  toPort : Fin 11
  deriving DecidableEq, Repr

/-- The default of `PORT_WIRING` (R8, R545): every link of an order-`order` cube. -/
def portWiring (order : Nat) : List Link :=
  (List.range (2 ^ order)).flatMap fun x =>
    (List.finRange 11).filterMap fun d => (peer order x d).map fun t => ⟨x, d, t.1, t.2⟩

/-- The array board slots that an order-`order` cube fills from slot `base` up (R543): the `2 ^ (order - 6)` slots of
an aligned run; none for an order or a slot that no cube has. -/
def cubeSlots (order base : Nat) : Option (List Nat) :=
  if 6 ≤ order ∧ order ≤ 10 ∧ base % 2 ^ (order - 6) = 0 ∧ base < 16 then
    some ((List.range (2 ^ (order - 6))).map (base + ·))
  else none

/-- The array node whose ports 31 and 63 go to channel `c` of local node `k` of the System Control Board in I/O slot
`slot` (R547, `HOST_WIRING`): slots 0..3 serve array boards 0..7 and slots 4..7 serve array boards 8..15. -/
def hostPeer (slot : Fin 8) (k : Fin 16) (c : Fin 8) : BitVec 10 :=
  nodeId (BitVec.ofNat 4 (c.val + 8 * (slot.val / 4))) (BitVec.ofNat 6 (4 * k.val + slot.val % 4))

/-- A host link: channel `channel` of local node `node` of the System Control Board in I/O slot `slot`, and the array
node, by its ID, whose ports 31 and 63 it joins. -/
structure HostLink where
  slot : Fin 8
  node : Fin 16
  channel : Fin 11
  array : Nat
  deriving DecidableEq, Repr

/-- The default of `HOST_WIRING` (R8, R547). -/
def hostWiring : List HostLink :=
  (List.finRange 8).flatMap fun slot =>
    (List.finRange 16).flatMap fun k =>
      (List.finRange 8).map fun c => ⟨slot, k, c.castLE (by omega), (hostPeer slot k c).toNat⟩

/-- The neighbour of local node `k` across dimension `d` of its order-3 cube (R546): two cubes, 0..7 and 8..15. -/
def localNeighbour (k : Fin 16) (d : Fin 3) : Fin 16 := (BitVec.ofNat 4 k.val ^^^ BitVec.twoPow 4 d.val).toFin

/-- Local nodes of one System Control Board that are joined (R546). -/
def localJoined (x y : Fin 16) : Bool := (List.finRange 3).any (fun d => localNeighbour x d == y)

/-- The channels that join a local node to its order-3 cube, dimension by dimension: the source does not say which
(91_not_in_source.md N17). Log 35, DESIGN CHOICE. -/
def defaultLocalChannels : Vector (Fin 11) 3 := #v[8, 9, 10]

/-- The connector of array board `k`, and the level of its error line in the Main Array interrupt controller: which
data byte, and which of its eight levels (R567, R585). -/
def boardConnector (k : Fin 16) : Nat := 20 - k.val

/-- The byte (0 low, 1 high) and the level of array board `k` in the Main Array interrupt controller (R585). -/
def errorLevel (k : Fin 16) : Nat × Nat := (k.val / 8, k.val % 8)

/-! ## The address space of the System Control Board -/

/-- What an 80286 memory address belongs to (R577). -/
inductive HostRegion where
  /-- system RAM (R558) -/
  | systemRam
  /-- the memory of the local nodes (R560) -/
  | localArray
  /-- reserved -/
  | reserved
  /-- EPROM (R557) -/
  | eprom
  deriving DecidableEq, Repr

/-- The 80286 memory map: first address, last address, what is there (R577). -/
def hostMemoryMap : List (Nat × Nat × HostRegion) := [
  (0x000000, 0x1FFFFF, .systemRam),
  (0x200000, 0x3FFFFF, .localArray),
  (0x400000, 0xF7FFFF, .reserved),
  (0xF80000, 0xFFFFFF, .eprom)]

/-- The region of an 80286 address; none past 16 megabytes. -/
def hostRegion (a : Nat) : Option HostRegion :=
  (hostMemoryMap.find? (fun r => r.1 ≤ a && a ≤ r.2.1)).map (fun r => r.2.2)

/-- The first 80286 address of the memory of local node `k` (R560). -/
def windowBase (k : Fin 16) : Nat := 0x200000 + 0x20000 * k.val

/-- The local node and the byte of its memory that an 80286 address reaches (R560); none outside the window. -/
def windowByte (a : Nat) : Option (Fin 16 × Nat) :=
  if h : 0x200000 ≤ a ∧ a < 0x400000 then some (⟨(a - 0x200000) / 0x20000, by omega⟩, (a - 0x200000) % 0x20000)
  else none

/-- The EPROM banks by chip: chip, bank 1 first and last address, bank 0 first and last address, the two misprinted
rows as corrected (R557, C41). -/
def promBanks : List (Nat × (Nat × Nat) × (Nat × Nat)) := [
  (2764, (0xFFC000, 0xFFFFFF), (0xFF8000, 0xFFBFFF)),
  (27128, (0xFF8000, 0xFFFFFF), (0xFF0000, 0xFF7FFF)),
  (27256, (0xFF0000, 0xFFFFFF), (0xFE0000, 0xFEFFFF)),
  (27512, (0xFE0000, 0xFFFFFF), (0xFC0000, 0xFDFFFF))]

/-- What an 80286 I/O address belongs to (R577). -/
inductive HostIo where
  | parallel
  | reserved
  | temperature
  | realTimeClock
  /-- SBX connector 1, 2 or 3 (R561) -/
  | sbx (n : Nat)
  | interruptControllers
  | serial
  | timer
  | coprocessor
  | dma
  deriving DecidableEq, Repr

/-- The 80286 I/O map, in which the coprocessor overlaps the timer (R574, R577). -/
def hostIoMap : List (Nat × Nat × HostIo) := [
  (0x000, 0x01F, .parallel),
  (0x020, 0x037, .reserved),
  (0x038, 0x03F, .temperature),
  (0x040, 0x05F, .realTimeClock),
  (0x060, 0x07F, .sbx 3),
  (0x080, 0x09F, .sbx 2),
  (0x0A0, 0x0BF, .sbx 1),
  (0x0C0, 0x0CF, .interruptControllers),
  (0x0D0, 0x0EF, .serial),
  (0x0F0, 0x0FF, .timer),
  (0x0F8, 0x0FF, .coprocessor),
  (0x100, 0x199, .dma)]

/-- The registers of a channel of the DMA controller (R563). -/
inductive DmaRegister where
  | commandPointer
  | sourcePointer
  | destinationPointer
  | translatePointer
  | listPointer
  | byteCount
  | channelCommand
  | mask
  | compare
  | assembly
  | channelStatus
  deriving DecidableEq, Repr

/-- The offset and the width in bits of a channel register (R563). -/
def DmaRegister.place : DmaRegister → Nat × Nat
  | .commandPointer => (0x00, 24)
  | .sourcePointer => (0x04, 24)
  | .destinationPointer => (0x08, 24)
  | .translatePointer => (0x0C, 24)
  | .listPointer => (0x10, 24)
  | .byteCount => (0x14, 24)
  | .channelCommand => (0x18, 24)
  | .mask => (0x1C, 16)
  | .compare => (0x1E, 16)
  | .assembly => (0x20, 16)
  | .channelStatus => (0x22, 8)

/-- The I/O address of a register of DMA channel `c` (R563). -/
def dmaAddress (c : Fin 4) (r : DmaRegister) : Nat := 0x10A + 0x24 * c.val + r.place.1

/-- The global registers of the DMA controller (R563): GCR, GSR, GMR, GBR and GDR. -/
inductive DmaGlobal where
  | command
  | status
  | mode
  | burst
  | delay
  deriving DecidableEq, Repr

/-- The I/O address and the width in bits of a global register (R563). -/
def DmaGlobal.place : DmaGlobal → Nat × Nat
  | .command => (0x100, 16)
  | .status => (0x102, 16)
  | .mode => (0x104, 16)
  | .burst => (0x106, 8)
  | .delay => (0x108, 8)

/-- A register of the DMA controller: a global one, or one of a channel (R563). -/
inductive DmaName where
  | global (g : DmaGlobal)
  | channel (c : Fin 4) (r : DmaRegister)
  deriving DecidableEq, Repr

/-- The I/O address and the width in bits of a register (R563). -/
def DmaName.place : DmaName → Nat × Nat
  | .global g => g.place
  | .channel c r => (dmaAddress c r, r.place.2)

/-- The registers of the DMA controller (R563). -/
def DmaName.all : List DmaName :=
  ([.command, .status, .mode, .burst, .delay] : List DmaGlobal).map .global ++
    (List.finRange 4).flatMap fun c =>
      ([.commandPointer, .sourcePointer, .destinationPointer, .translatePointer, .listPointer, .byteCount, .channelCommand,
        .mask, .compare, .assembly, .channelStatus] : List DmaRegister).map (.channel c)

/-- The register of the DMA controller, and the byte of it, that an I/O address is, if any: a register of more than a byte
takes the addresses up from its own, its low byte first (log 35, DEDUCED). -/
def dmaByte (a : Nat) : Option (DmaName × Nat) :=
  DmaName.all.findSome? fun r =>
    if r.place.1 ≤ a ∧ a < r.place.1 + r.place.2 / 8 then some (r, a - r.place.1) else none

/-- A row of the transfer table of the SBX connectors (R561): the connector, the data bits, the chip selects MCS1 and
MCS0, and the first of the eight addresses, which go up by two. -/
structure SbxTransfer where
  connector : Nat
  bits : Nat
  mcs1 : Bool
  mcs0 : Bool
  first : Nat
  deriving DecidableEq, Repr

/-- The transfer table (R561), with AA for the misprinted A9 (C46). -/
def sbxTransfers : List SbxTransfer := [
  ⟨1, 16, true, true, 0xA0⟩, ⟨1, 8, false, true, 0xA0⟩, ⟨1, 16, true, false, 0xA1⟩, ⟨1, 8, true, false, 0xB0⟩,
  ⟨2, 16, true, true, 0x80⟩, ⟨2, 8, false, true, 0x80⟩, ⟨2, 16, true, false, 0x81⟩, ⟨2, 8, true, false, 0x90⟩,
  ⟨3, 16, true, true, 0x60⟩, ⟨3, 8, false, true, 0x60⟩, ⟨3, 16, true, false, 0x61⟩, ⟨3, 8, true, false, 0x70⟩]

/-- The eight addresses of a row (R561). -/
def SbxTransfer.addresses (r : SbxTransfer) : List Nat := (List.range 8).map fun i => r.first + 2 * i

/-- The I/O address of RR0 and WR0 of serial channel `c` (R564). -/
def serialAddress (c : Fin 8) : Nat := 0xD4 + 8 * (c.val / 2) - 4 * (c.val % 2)

/-- The I/O address of RR8 and WR8 of serial channel `c` (R564). -/
def serialData (c : Fin 8) : Nat := serialAddress c + 2

/-- The vector base of the device of serial channel `c` (R564). -/
def serialVectorBase (c : Fin 8) : Nat := 0x28 + 8 * (c.val / 2)

/-- The registers of a serial channel that can be read (R564). -/
inductive SerialRead where
  /-- transmit and receive buffer status and external status -/
  | bufferStatus
  /-- special receive condition status -/
  | specialStatus
  /-- interrupt vector: unmodified on even channels, modified on odd ones -/
  | vector
  /-- receive buffer -/
  | buffer
  /-- lower byte of the baud rate time constant -/
  | constantLow
  /-- upper byte of it -/
  | constantHigh
  /-- external and status interrupt information -/
  | externalInterrupt
  deriving DecidableEq, Repr

/-- The number `n` of RRn (R564). -/
def SerialRead.number : SerialRead → Nat
  | .bufferStatus => 0
  | .specialStatus => 1
  | .vector => 2
  | .buffer => 8
  | .constantLow => 12
  | .constantHigh => 13
  | .externalInterrupt => 15

/-- The registers of a serial channel that can be written (R564). -/
inductive SerialWrite where
  /-- initialization commands for addressing, modes and CRC; its bits 0..4 name the register of the next access, which
  clears them -/
  | commands
  /-- transmit and receive interrupt and data transfer mode -/
  | interruptMode
  /-- interrupt vector, one per 8530 -/
  | vector
  /-- receive parameters and control -/
  | receive
  /-- transmit and receive miscellaneous parameters and modes -/
  | miscellaneous
  /-- transmit parameters and controls -/
  | transmit
  /-- sync characters or SDLC address field -/
  | syncAddress
  /-- sync character or SDLC flag -/
  | syncFlag
  /-- transmit buffer -/
  | buffer
  /-- master interrupt control and reset, one per 8530 -/
  | master
  /-- miscellaneous transmitter and receiver control bits -/
  | controlBits
  /-- clock mode control -/
  | clockMode
  /-- lower byte of the baud rate time constant -/
  | constantLow
  /-- upper byte of it -/
  | constantHigh
  /-- miscellaneous control bits -/
  | moreControlBits
  /-- external and status interrupt control -/
  | externalInterrupt
  deriving DecidableEq, Repr

/-- The number `n` of WRn (R564). -/
def SerialWrite.number : SerialWrite → Nat
  | .commands => 0
  | .interruptMode => 1
  | .vector => 2
  | .receive => 3
  | .miscellaneous => 4
  | .transmit => 5
  | .syncAddress => 6
  | .syncFlag => 7
  | .buffer => 8
  | .master => 9
  | .controlBits => 10
  | .clockMode => 11
  | .constantLow => 12
  | .constantHigh => 13
  | .moreControlBits => 14
  | .externalInterrupt => 15

/-- The registers that can be read (R564). -/
def SerialRead.all : List SerialRead :=
  [.bufferStatus, .specialStatus, .vector, .buffer, .constantLow, .constantHigh, .externalInterrupt]

/-- The registers that can be written (R564). -/
def SerialWrite.all : List SerialWrite :=
  [.commands, .interruptMode, .vector, .receive, .miscellaneous, .transmit, .syncAddress, .syncFlag, .buffer, .master,
    .controlBits, .clockMode, .constantLow, .constantHigh, .moreControlBits, .externalInterrupt]

/-- The register RRn, where there is one (R564). -/
def SerialRead.ofNumber (n : Nat) : Option SerialRead := SerialRead.all.find? fun r => r.number == n

/-- The register WRn, where there is one (R564). -/
def SerialWrite.ofNumber (n : Nat) : Option SerialWrite := SerialWrite.all.find? fun r => r.number == n

/-- The two I/O addresses of a serial channel: that of RR0 and WR0, and that of RR8 and WR8 (R564). -/
inductive SerialPort where
  | control
  | data
  deriving DecidableEq, Repr

/-- The serial channel and the port that an I/O address is, if any (R564). -/
def serialPort (a : Nat) : Option (Fin 8 × SerialPort) :=
  (List.finRange 8).findSome? fun c =>
    if serialAddress c = a then some (c, .control) else if serialData c = a then some (c, .data) else none

/-- The time constant of a baud rate given in tenths (R564): 57600 over the rate, less 2, to the nearest whole number,
as the table's rows for 2000, 134.5 and 110 have it. -/
def baudConstant (tenths : Nat) : Nat := (2 * 576000 + tenths) / (2 * tenths) - 2

/-- The four interrupts of a serial channel (R564). -/
inductive SerialEvent where
  | txEmpty
  | statusChange
  | rxReady
  | specialRx
  deriving DecidableEq, Repr

/-- The interrupts of the System Control Board's 80286 (R573). -/
inductive HostInterrupt where
  | divideError
  | singleStep
  | nonMaskable
  | breakpoint
  | overflow
  | rangeBound
  | invalidOpcode
  | extensionNotAvailable
  | tableTooSmall
  | extensionOverrun
  | segmentOverrun
  | extensionError
  | scheduleTimer
  | serial (c : Fin 8) (e : SerialEvent)
  | realTimeClock
  | localArrayError
  | mainArrayError
  | dmaEnd (c : Fin 4)
  | sbx3
  | sbx2
  | sbx1
  | disk
  | powerDown
  | printer
  | temperature
  deriving DecidableEq, Repr

/-- The vector number of a host interrupt (R573). -/
def HostInterrupt.number : HostInterrupt → Nat
  | .divideError => 0
  | .singleStep => 1
  | .nonMaskable => 2
  | .breakpoint => 3
  | .overflow => 4
  | .rangeBound => 5
  | .invalidOpcode => 6
  | .extensionNotAvailable => 7
  | .tableTooSmall => 8
  | .extensionOverrun => 9
  | .segmentOverrun => 13
  | .extensionError => 16
  | .scheduleTimer => 32
  | .serial c .txEmpty => 40 + 4 * c.val
  | .serial c .statusChange => 41 + 4 * c.val
  | .serial c .rxReady => 42 + 4 * c.val
  | .serial c .specialRx => 43 + 4 * c.val
  | .realTimeClock => 72
  | .localArrayError => 73
  | .mainArrayError => 74
  | .dmaEnd c => 75 + c.val
  | .sbx3 => 80
  | .sbx2 => 81
  | .sbx1 => 82
  | .disk => 83
  | .powerDown => 84
  | .printer => 85
  | .temperature => 86

/-- The interrupt comes from a unit whose behaviour is not in the source (00_scope.md R6): the timer, a serial channel, the
DMA controller, an SBX module or the printer. -/
def HostInterrupt.external : HostInterrupt → Bool
  | .scheduleTimer => true
  | .serial _ _ => true
  | .dmaEnd _ => true
  | .sbx3 => true
  | .sbx2 => true
  | .sbx1 => true
  | .printer => true
  | .divideError => false
  | .singleStep => false
  | .nonMaskable => false
  | .breakpoint => false
  | .overflow => false
  | .rangeBound => false
  | .invalidOpcode => false
  | .extensionNotAvailable => false
  | .tableTooSmall => false
  | .extensionOverrun => false
  | .segmentOverrun => false
  | .extensionError => false
  | .realTimeClock => false
  | .localArrayError => false
  | .mainArrayError => false
  | .disk => false
  | .powerDown => false
  | .temperature => false

/-- The address of the vector of a host interrupt: four bytes each (R556). -/
def HostInterrupt.address (i : HostInterrupt) : Nat := 4 * i.number

/-! ## Timers and interrupt controllers -/

/-- The four registers of the timer (R571): the prescaler of both timers, the watchdog, whose end is a nonmaskable
interrupt, the schedule timer, whose end is interrupt 32, and the control register, which can only be written. -/
inductive TimerRegister where
  | prescaler
  | watchdog
  | schedule
  | control
  deriving DecidableEq, Repr

/-- Their I/O addresses (R571). -/
def TimerRegister.address : TimerRegister → Nat
  | .prescaler => 0xF0
  | .watchdog => 0xF2
  | .schedule => 0xF4
  | .control => 0xF6

/-- The register of the timer that an I/O address is, if any (R571). -/
def TimerRegister.ofAddress (a : Nat) : Option TimerRegister :=
  ([.prescaler, .watchdog, .schedule, .control] : List TimerRegister).find? fun r => r.address == a

/-- The interrupt controllers, the two of the main array as the one 16-bit pair that they are (R572, R585). -/
inductive Controller where
  | master
  | slave0
  | slave1
  /-- polled, 16-bit access only -/
  | mainArray
  deriving DecidableEq, Repr

/-- The I/O address of ICW1, OCW2 and OCW3, and that of ICW2 to ICW4 and the mask (R572, R585). -/
def Controller.addresses : Controller → Nat × Nat
  | .master => (0xC0, 0xC2)
  | .slave0 => (0xC8, 0xCA)
  | .slave1 => (0xCC, 0xCE)
  | .mainArray => (0xC4, 0xC6)

/-- The two I/O addresses of an interrupt controller (R572, R585). -/
inductive ControllerPort where
  /-- that of ICW1, OCW2 and OCW3 -/
  | first
  /-- that of ICW2 to ICW4 and the mask -/
  | second
  deriving DecidableEq, Repr

/-- The interrupt controller and the port that an I/O address is, if any (R572, R585). -/
def Controller.ofAddress (a : Nat) : Option (Controller × ControllerPort) :=
  ([.master, .slave0, .slave1, .mainArray] : List Controller).findSome? fun c =>
    if c.addresses.1 = a then some (c, .first) else if c.addresses.2 = a then some (c, .second) else none

/-- What is at an input of an interrupt controller. -/
inductive ControllerInput where
  /-- the interrupt of a device -/
  | device (i : HostInterrupt)
  /-- one of the four serial channel controllers, whose two channels have eight interrupts -/
  | serialController (n : Fin 4)
  /-- another controller -/
  | cascade (c : Controller)
  /-- the error line of an array board -/
  | arrayBoard (k : Fin 16)
  | reserved
  deriving DecidableEq, Repr

/-- The inputs of each controller from 0 up (R572, R585). The pair of the main array has sixteen, the low data byte's
first, and raises input 2 of slave 0. -/
def Controller.inputs : Controller → List ControllerInput
  | .master =>
    [.device .scheduleTimer, .serialController 0, .serialController 1, .serialController 2, .serialController 3,
      .cascade .slave0, .cascade .slave1, .reserved]
  | .slave0 =>
    [.device .realTimeClock, .device .localArrayError, .device .mainArrayError, .device (.dmaEnd 0),
      .device (.dmaEnd 1), .device (.dmaEnd 2), .device (.dmaEnd 3), .reserved]
  | .slave1 =>
    [.device .sbx3, .device .sbx2, .device .sbx1, .device .disk, .device .powerDown, .device .printer,
      .device .temperature, .reserved]
  | .mainArray => (List.finRange 16).map .arrayBoard

/-! ## The system RAM's error correction -/

/-- A cell of the syndrome table (R568). -/
inductive Syndrome where
  | noError
  | check (n : Nat)
  | data (n : Nat)
  | double
  /-- blank in the print -/
  | blank
  deriving DecidableEq, Repr

/-- The rows of the syndrome table by bits 5, 4, 3, each by its printed cells (R568). -/
def syndromeRows : List (List Syndrome) := [
  [.noError, .check 0, .check 1, .double, .check 2, .double, .double, .blank],
  [.check 3, .double, .double, .data 0, .double, .data 1, .data 2, .double],
  [.check 4, .double, .double, .data 5, .double, .data 6, .data 7, .double],
  [.double, .data 3, .blank, .double, .data 4, .double, .double, .blank],
  [.check 5, .double, .double, .data 11, .double, .blank, .data 12, .double],
  [.double, .data 8, .data 9, .double, .data 10, .double, .double, .blank],
  [.double, .data 13, .data 14, .double, .data 15, .double, .double, .blank],
  [.blank, .double, .double, .blank, .double, .blank, .blank, .double]]

/-- What a syndrome says (R568): bits 5, 4, 3 choose the row and bits 2, 1, 0 the cell, bit 0 the fastest, as the header's
fragments suggest (log 35, DEDUCED). -/
def syndromeOf (s : BitVec 8) : Syndrome :=
  ((syndromeRows[(s.extractLsb' 3 3).toNat]?).bind fun row => row[(s.extractLsb' 0 3).toNat]?).getD .blank

/-- The syndrome of an error in each data bit from 0 up, as the table has them (R568). -/
def dataSyndromes : List (BitVec 6) := [11, 13, 14, 25, 28, 19, 21, 22, 41, 42, 44, 35, 38, 49, 50, 52]

/-- The six check bits of a halfword: those under which an error in one bit has the syndrome that the table gives for it
(R568). -/
def checkBits (d : Half) : BitVec 6 :=
  (dataSyndromes.zipIdx.map fun p => if d.getLsbD p.2 then p.1 else 0).foldl (· ^^^ ·) 0

/-- The memory bank of a syndrome (R568). -/
def syndromeBank (s : BitVec 8) : BitVec 2 := s.extractLsb' 6 2

/-! ## Mapping aids and the initialization tree -/

/-- The gray code image of a number (R603). -/
def grayCode (x : Nat) : Nat := x ^^^ (x / 2)

/-- The number whose gray code image is `z`, for `z` of at most `k` bits above the lowest (R603: the loop that XORs in
every right shift). -/
def grayInverse (z : Nat) : Nat → Nat
  | 0 => z
  | k + 1 => grayInverse z k ^^^ (z / 2 ^ (k + 1))

/-- The neighbours of processor `x` in the ring of `2 ^ order` processors, `F(G(x) - 1)` and `F(G(x) + 1)` with `F` the gray
code and `G` its inverse (R603). That the sums are modulo `2 ^ order`, so that the ring closes, the rule does not print
(log 35, DEDUCED). -/
def ringNeighbours (order x : Nat) : Nat × Nat :=
  let g := grayInverse x order
  (grayCode ((g + (2 ^ order - 1)) % 2 ^ order), grayCode ((g + 1) % 2 ^ order))

/-- The processor at `(x, y)` of a grid of `2 ^ m` columns (R603). -/
def gridNode (m x y : Nat) : Nat := 2 ^ m * grayCode y + grayCode x

/-- The processor at `(x, y, z)` of a grid of `2 ^ m` by `2 ^ n` by some power of two: the ID is split into three parts, each
the gray code of a place, as `gridNode` splits it into two. R603 prints no formula for three and four dimensions (log 35,
DEDUCED). -/
def gridNode3 (m n x y z : Nat) : Nat := 2 ^ (m + n) * grayCode z + gridNode m x y

/-- The processor at `(x, y, z, w)` of a grid of `2 ^ m` by `2 ^ n` by `2 ^ k` by some power of two: the ID is split into four
parts (R603; log 35, DEDUCED). -/
def gridNode4 (m n k x y z w : Nat) : Nat := 2 ^ (m + n + k) * grayCode w + gridNode3 m n x y z

/-- The places of processor `x` in a grid whose dimensions have the given bits of the ID, the lowest first (R603). -/
def gridPlaces : List Nat → Nat → List Nat
  | [], _ => []
  | bits :: rest, x => grayInverse (x % 2 ^ bits) bits :: gridPlaces rest (x / 2 ^ bits)

/-- The number of trailing zeros of a node number in a cube of an order, the root having as many as the order
(R590). -/
def treeZeros (order x : Nat) : Nat := ((List.range order).find? (fun d => x.testBit d)).getD order

/-- The nodes that node `x` starts in the initialization tree, in the order in which it starts them (R590). -/
def treeChildren (order x : Nat) : List Nat := ((List.range (treeZeros order x)).reverse).map (neighbour x)

end Sys2Proof.Machine
end

