-- ==== Sys2Proof/Machine/Cube.lean ====
section
/-! DEFINITION. The array of nodes (61_system_platform.md R541, R543, R545, R550): the nodes of a hypercube side by
side, each a machine of its own, and the links between them. A node's `step` sees its neighbours as the events `deliver`
and `arrive`; here one move takes a halfword off the one node's link and brings it to the other. -/

namespace Sys2Proof.Machine

open Sys2Proof

/-- The nodes of a cube, node `x` at place `x`, in the array board slots from `base` up (R541, R543), and its links
(`PORT_WIRING`, R8). -/
structure Cube where
  order : Nat
  base : Nat
  wiring : List Link
  nodes : List State
  deriving DecidableEq, Repr

/-- One move of the array (R550): the schedule of moves is the environment's. -/
inductive CubeMove where
  /-- the next step of node `x` -/
  | node (x : Nat)
  /-- the halfword at the head of the link of output channel `d` of node `x` reaches its peer (46_io.md R457) -/
  | deliver (x : Nat) (d : Fin 11) (bad : Bool)
  /-- the reset line of the array board in slot `k` (R567) -/
  | resetBoard (k : Fin 16)
  deriving DecidableEq, Repr

/-! ## Wiring -/

/-- The input that output channel `d` of node `x` feeds. -/
def Cube.leads (c : Cube) (x : Nat) (d : Fin 11) : Option (Nat × Fin 11) :=
  (c.wiring.find? fun l => l.fromNode == x && l.fromPort == d).map fun l => (l.toNode, l.toPort)

/-- Input channel `d` of node `x` is fed by a node of the cube. -/
def Cube.fed (c : Cube) (x : Nat) (d : Fin 11) : Bool := c.wiring.any fun l => l.toNode == x && l.toPort == d

/-- The ID of the node at place `x` (R543, R544). -/
def Cube.id (c : Cube) (x : Nat) : Nat := 64 * c.base + x

/-- The place of the node with an ID among `count` nodes in the slots from `base` up. -/
def placeOf (base count id : Nat) : Option Nat :=
  if 64 * base ≤ id ∧ id - 64 * base < count then some (id - 64 * base) else none

/-- The place of the node with an ID. -/
def Cube.place (c : Cube) (id : Nat) : Option Nat := placeOf c.base c.nodes.length id

/-- The array board slot of the node at place `x` (R544). -/
def Cube.slot (c : Cube) (x : Nat) : Nat := c.base + x / 64

/-- What is wired (46_io.md R457): every link joins a node of the cube to another, no output and no input has two, and each
node's own part of the wiring, but for its host channel, says the same. -/
def Cube.wired (c : Cube) : Bool :=
  decide (c.wiring.map fun l => (l.fromNode, l.fromPort)).Nodup &&
    decide (c.wiring.map fun l => (l.toNode, l.toPort)).Nodup &&
    (c.wiring.all fun l =>
      l.fromNode != l.toNode && decide (l.fromNode < c.nodes.length) && decide (l.toNode < c.nodes.length)) &&
    (List.range c.nodes.length).all fun x =>
      c.nodes[x]?.all fun s =>
        (List.finRange 11).all fun d =>
          d == 10 || ((s.cfg.wiring.get d == .linked) == (c.leads x d).isSome && s.cfg.inWired.get d == c.fed x d)

/-- The cubes there are (R8, R541, R543): an order of 6 to 10, or below 6 in unit tests, an aligned run of slots, the
nodes of that order, none of them a System Control Board's, and a wiring. -/
def Cube.wf (c : Cube) : Bool :=
  decide (c.order ≤ 10) && c.base % 2 ^ (c.order - 6) == 0 && decide (c.base + 2 ^ (c.order - 6) ≤ 16) &&
    c.nodes.length == 2 ^ c.order && c.nodes.all (fun s => s.cfg.order == c.order && !s.cfg.ioBoard) && c.wired

/-! ## Moves -/

/-- The nodes with node `x` replaced. -/
def Cube.setNode (c : Cube) (x : Nat) (s : State) : Cube := { c with nodes := c.nodes.set x s }

/-- An outcome of node `x` as an outcome of the array: a stop names its node. -/
def Cube.outcome (c : Cube) (x : Nat) : Host.Outcome State Fault Refusal → Host.Outcome Cube (Nat × Fault) (Nat × Refusal)
  | .next s => .next (c.setNode x s)
  | .fault f => .fault (x, f)
  | .refused r => .refused (x, r)

/-- A halfword on the link of output channel `d` of `s` is taken off it (R457). -/
def State.takeLink (s : State) (d : Fin 11) : State := s.setOut d (s.outPort d).delivered

/-- The node signals on its Error pin (10_state.md R55): its Error flag is set, and the pin is not grounded, as it is on a
System Control Board (70_reset_and_hazards.md R622). -/
def State.signalsError (s : State) : Bool := s.errorFlag && !s.cfg.ioBoard

/-- A halfword reaches input channel `d` of `s` (R452). -/
def State.receive (s : State) (d : Fin 11) (h : Half) (bad : Bool) : State := s.setIn d ((s.inPort d).arrived h bad)

/-- The event is not one that would take a halfword off an output, or bring one to an input, of those named. -/
def Event.own (ports : Fin 11 → Bool) : Event → Bool
  | .deliver p => !ports p
  | .arrive p _ _ => !ports p
  | .cpu => true
  | .tick => true
  | .store _ => true
  | .send _ => true
  | .broadcast => true
  | .correctedEcc => true
  | .uncorrectable _ _ => true
  | .hostWrite _ _ => true
  | .hostRead _ => true

/-- The node without the moves of its schedule on the channels named, which are not its own to make: a halfword crosses a
link by a move of the array or of the system only, so that none is lost and none comes from nowhere (R457). -/
def State.among (ports : Fin 11 → Bool) (s : State) : State :=
  { s with
      events := s.events.filter (Event.own ports)
      bus := s.bus.map fun es => es.filter (Event.own ports) }

/-- Node `x` with a change. -/
def Cube.onNode (c : Cube) (x : Nat) (act : State → State) : Cube := { c with nodes := c.nodes.modify x act }

/-- The head of a link reaches its peer; an empty link and a channel without a peer change nothing. -/
def Cube.deliver (c : Cube) (x : Nat) (d : Fin 11) (bad : Bool) : Cube :=
  match c.leads x d, c.nodes[x]? with
  | some (y, e), some s =>
    match (s.outPort d).link, c.nodes[y]? with
    | h :: _, some _ => (c.onNode x fun s => s.takeLink d).onNode y fun t => t.receive e h bad
    | _, _ => c
  | _, _ => c

/-- A node as its reset line leaves it (70_reset_and_hazards.md R621): what it has sent is still on its links (R470),
and the schedule and the free values are not the node's. Its memory is that of a first reset (log 4). -/
def State.hardReset (s : State) : State :=
  { State.resetWith s.cfg with
      out := s.out.map fun p => { OutPort.zero with link := p.link }
      events := s.events
      bus := s.bus
      free := s.free }

/-- What is on some of the links of a node is lost (D62). -/
def State.dropLinks (lost : Fin 11 → Bool) (s : State) : State :=
  s.mapOut fun d p => if lost d then { p with link := [] } else p

/-- What node `x` is after the nodes of the board in slot `k` are reset: what is in flight toward one of them is lost
(D62), and one of them is as after reset. -/
def Cube.resetNode (c : Cube) (k : Fin 16) (x : Nat) (s : State) : State :=
  (if c.slot x = k.val then s.hardReset else s).dropLinks fun d =>
    match c.leads x d with
    | some (y, _) => c.slot y == k.val
    | none => false

/-- The nodes of the array board in slot `k` are reset (R567, R620). -/
def Cube.resetBoard (c : Cube) (k : Fin 16) : Cube := { c with nodes := c.nodes.mapIdx (c.resetNode k) }

/-- One move of the array. A node that is not there makes no move. Of an array by itself the host channels lead to the
environment, and are the nodes' own schedules' to move. -/
def Cube.move (m : CubeMove) (c : Cube) : Host.Outcome Cube (Nat × Fault) (Nat × Refusal) :=
  match m with
  | .node x =>
    match c.nodes[x]? with
    | some s => c.outcome x (step (s.among fun d => d != 10))
    | none => .next c
  | .deliver x d bad => .next (c.deliver x d bad)
  | .resetBoard k => .next (c.resetBoard k)

/-! ## Reset -/

/-- What an output channel is wired to: linked where it leads somewhere, else the scenario's choice, no room unless it says
otherwise (R635 P8). -/
def outWire (leads : Bool) (choice : OutWire) : OutWire :=
  if leads then .linked else if choice = .discards then .discards else .blocked

/-- What the output channels of node `x` are wired to: the links, and the host channel where `host` says that a node of a
System Control Board is at its far end. The source does not say what a host channel is whose board is not there: the
model has it wired to nothing (log 23, DESIGN CHOICE). -/
def outWires (wiring : List Link) (host : Nat → Bool) (cfg : Params) (x : Nat) : Vector OutWire 11 :=
  Vector.ofFn fun d =>
    outWire ((d = 10 && host x) || wiring.any fun l => l.fromNode == x && l.fromPort == d) (cfg.wiring.get d)

/-- Which input channels of node `x` are wired: the links, and the host channel where `host` says so. -/
def inWires (wiring : List Link) (host : Nat → Bool) (x : Nat) : Vector Bool 11 :=
  Vector.ofFn fun d => (d = 10 && host x) || wiring.any fun l => l.toNode == x && l.toPort == d

/-- The launch parameters of node `x` of an array. -/
def nodeParams (order : Nat) (wiring : List Link) (host : Nat → Bool) (cfg : Params) (x : Nat) : Params :=
  { cfg with
      order := order
      ioBoard := false
      wiring := outWires wiring host cfg x
      inWired := inWires wiring host x }

/-- An array right after reset (R541, R621), in the slots from `base` up; `host` says which nodes' host channels have a
node at their far end. -/
def Cube.reset (order base : Nat) (wiring : List Link) (host : Nat → Bool) (cfg : Params) : Cube where
  order := order
  base := base
  wiring := wiring
  nodes := (List.range (2 ^ order)).map fun x => State.resetWith (nodeParams order wiring host cfg x)

end Sys2Proof.Machine
end

