-- ==== Sys2Proof/Machine/Devices.lean ====
section
/-! DEFINITION. The devices of the System Control Board as far as the source gives their registers (61_system_platform.md
R562 to R572, R585): the printer port, the DMA controller, the serial channels, the disk controller, the temperature
sensors, the real time clock, the timers and the interrupt controllers, each with its registers after a system reset,
which the source does not give (R575; log 35, DESIGN CHOICE). -/

namespace Sys2Proof.Machine

open Sys2Proof

/-! ## Printer port -/

/-- What the printer says of itself (R562). -/
inductive PrinterCondition where
  | select
  | paperError
  | fault
  | busy
  deriving DecidableEq, Repr

/-- The bit of the port that a condition is (R562). -/
def PrinterCondition.bit : PrinterCondition → Nat
  | .select => 8
  | .paperError => 9
  | .fault => 10
  | .busy => 11

/-- The printer port, I/O address 0x14 (R562). Whether the printer data read in bits 0 to 7 is what was last written or
what the printer's lines carry is not in the source: the model keeps the two apart, and reads the lines (log 35, DESIGN
CHOICE). -/
structure PrinterPort where
  /-- as last written: printer data and Centronics control signals -/
  written : Half
  /-- the printer data as read -/
  data : Byte
  /-- the conditions as read, bits 8 to 11 -/
  conditions : BitVec 4
  /-- the system's mode switch: diagnostic, not normal -/
  diagnostic : Bool
  deriving DecidableEq, Repr

/-- The port after reset. -/
def PrinterPort.reset : PrinterPort := ⟨0, 0, 0, false⟩

/-- The port as read, bits 12 to 15 being the system's (R562); the reserved bits 13 and 14 read 0 (log 35). -/
def PrinterPort.read (p : PrinterPort) (mainPower : Bool) : Half :=
  BitVec.ofBool mainPower ++ 0#2 ++ BitVec.ofBool p.diagnostic ++ p.conditions ++ p.data

/-! ## DMA controller -/

/-- The registers of one channel of the DMA controller (R563). -/
structure DmaChannel where
  commandPointer : BitVec 24
  sourcePointer : BitVec 24
  destinationPointer : BitVec 24
  translatePointer : BitVec 24
  listPointer : BitVec 24
  byteCount : BitVec 24
  channelCommand : BitVec 24
  mask : Half
  compare : Half
  assembly : Half
  channelStatus : Byte
  deriving DecidableEq, Repr

/-- A channel after reset. -/
def DmaChannel.reset : DmaChannel := ⟨0, 0, 0, 0, 0, 0, 0, 0, 0, 0, 0⟩

/-- A register of the channel, in the low bits. -/
def DmaChannel.get (c : DmaChannel) : DmaRegister → BitVec 24
  | .commandPointer => c.commandPointer
  | .sourcePointer => c.sourcePointer
  | .destinationPointer => c.destinationPointer
  | .translatePointer => c.translatePointer
  | .listPointer => c.listPointer
  | .byteCount => c.byteCount
  | .channelCommand => c.channelCommand
  | .mask => c.mask.setWidth 24
  | .compare => c.compare.setWidth 24
  | .assembly => c.assembly.setWidth 24
  | .channelStatus => c.channelStatus.setWidth 24

/-- A register of the channel set to the low bits of `v`. -/
def DmaChannel.put (c : DmaChannel) (r : DmaRegister) (v : BitVec 24) : DmaChannel :=
  match r with
  | .commandPointer => { c with commandPointer := v }
  | .sourcePointer => { c with sourcePointer := v }
  | .destinationPointer => { c with destinationPointer := v }
  | .translatePointer => { c with translatePointer := v }
  | .listPointer => { c with listPointer := v }
  | .byteCount => { c with byteCount := v }
  | .channelCommand => { c with channelCommand := v }
  | .mask => { c with mask := v.setWidth 16 }
  | .compare => { c with compare := v.setWidth 16 }
  | .assembly => { c with assembly := v.setWidth 16 }
  | .channelStatus => { c with channelStatus := v.setWidth 8 }

/-- The DMA controller, an 82258 (R563): its global registers and its four channels. What it does with them, and how a
command block in memory fills a channel's registers, is the 82258's (00_scope.md R6; the block's format is lost,
91_not_in_source.md N18): an event of the board. -/
structure DmaController where
  command : Half
  status : Half
  mode : Half
  burst : Byte
  delay : Byte
  channels : Vector DmaChannel 4
  deriving DecidableEq, Repr

/-- The controller after reset. -/
def DmaController.reset : DmaController := ⟨0, 0, 0, 0, 0, Vector.replicate 4 .reset⟩

/-- A register of the controller, in the low bits. -/
def DmaController.get (d : DmaController) : DmaName → BitVec 24
  | .global .command => d.command.setWidth 24
  | .global .status => d.status.setWidth 24
  | .global .mode => d.mode.setWidth 24
  | .global .burst => d.burst.setWidth 24
  | .global .delay => d.delay.setWidth 24
  | .channel c r => (d.channels.get c).get r

/-- A register of the controller set to the low bits of `v`, by the 80286 or by the 82258 itself. -/
def DmaController.put (d : DmaController) (r : DmaName) (v : BitVec 24) : DmaController :=
  match r with
  | .global .command => { d with command := v.setWidth 16 }
  | .global .status => { d with status := v.setWidth 16 }
  | .global .mode => { d with mode := v.setWidth 16 }
  | .global .burst => { d with burst := v.setWidth 8 }
  | .global .delay => { d with delay := v.setWidth 8 }
  | .channel c r => { d with channels := d.channels.set c.val ((d.channels.get c).put r v) c.isLt }

/-- Byte `i` of a value replaced. -/
def withByte (v : BitVec 24) (i : Nat) (b : Byte) : BitVec 24 :=
  (v &&& ~~~(0xFF#24 <<< (8 * i))) ||| (b.setWidth 24 <<< (8 * i))

/-- A byte of a register is read. That each register reads as it was last set, the statuses too, and that each can be
written, R563 does not say (log 35, DESIGN CHOICE). -/
def DmaController.readByte (d : DmaController) (a : Nat) : Option Byte :=
  (dmaByte a).map fun (r, i) => (d.get r).extractLsb' (8 * i) 8

/-- A byte of a register is written. -/
def DmaController.writeByte (d : DmaController) (a : Nat) (v : Byte) : Option DmaController :=
  (dmaByte a).map fun (r, i) => d.put r (withByte (d.get r) i v)

/-- A 16-bit read at an even address: two bytes, the low one first. A byte that is no register's, above a register of 8 or 24
bits, reads 0 (log 35, DESIGN CHOICE). -/
def DmaController.read (d : DmaController) (a : Nat) : Option Half :=
  if a % 2 = 0 then (d.readByte a).map fun low => (d.readByte (a + 1)).getD 0 ++ low else none

/-- A 16-bit write at an even address: two bytes, of which one that is no register's is lost. -/
def DmaController.write (d : DmaController) (a : Nat) (v : Half) : Option DmaController :=
  if a % 2 = 0 then
    (d.writeByte a (v.setWidth 8)).map fun t => (t.writeByte (a + 1) (v.extractLsb' 8 8)).getD t
  else none

/-! ## Serial channels -/

/-- One serial channel (R564): the registers written, and those that its controller, an 8530, makes what they are. -/
structure SerialChannel where
  /-- WR0 -/
  commands : Byte
  /-- WR1 -/
  interruptMode : Byte
  /-- WR3 -/
  receive : Byte
  /-- WR4 -/
  miscellaneous : Byte
  /-- WR5 -/
  transmit : Byte
  /-- WR6 -/
  syncAddress : Byte
  /-- WR7 -/
  syncFlag : Byte
  /-- WR8, the transmit buffer -/
  sent : Byte
  /-- WR10 -/
  controlBits : Byte
  /-- WR11 -/
  clockMode : Byte
  /-- WR12 and RR12 -/
  constantLow : Byte
  /-- WR13 and RR13 -/
  constantHigh : Byte
  /-- WR14 -/
  moreControlBits : Byte
  /-- WR15 -/
  externalInterrupt : Byte
  /-- RR0 -/
  bufferStatus : Byte
  /-- RR1 -/
  specialStatus : Byte
  /-- RR8, the receive buffer -/
  received : Byte
  /-- RR15 -/
  externalStatus : Byte
  deriving DecidableEq, Repr

/-- A channel after reset. -/
def SerialChannel.reset : SerialChannel := ⟨0, 0, 0, 0, 0, 0, 0, 0, 0, 0, 0, 0, 0, 0, 0, 0, 0, 0⟩

/-- The baud rate time constant (R564). -/
def SerialChannel.timeConstant (c : SerialChannel) : Half := c.constantHigh ++ c.constantLow

/-- One 8530 (R564): the two registers that there is one of, the vector as it is modified for the odd channel, and its two
channels, the even one first. -/
structure SerialController where
  /-- WR2, and RR2 of the even channel -/
  vector : Byte
  /-- RR2 of the odd channel: how the vector is modified is the 8530's (00_scope.md R6) -/
  modified : Byte
  /-- WR9 -/
  master : Byte
  channels : Vector SerialChannel 2
  deriving DecidableEq, Repr

/-- A controller after reset. -/
def SerialController.reset : SerialController := ⟨0, 0, 0, Vector.replicate 2 .reset⟩

/-- Channel `i` replaced. -/
def SerialController.setChannel (d : SerialController) (i : Fin 2) (c : SerialChannel) : SerialController :=
  { d with channels := d.channels.set i.val c i.isLt }

/-- A register of channel `i` as it is read (R564). That RR12 and RR13 are the time constant as WR12 and WR13 have it, and
RR2 of the even channel WR2, is read from what the rule calls them (log 35, DEDUCED). -/
def SerialController.get (d : SerialController) (i : Fin 2) (r : SerialRead) : Byte :=
  let c := d.channels.get i
  match r with
  | .bufferStatus => c.bufferStatus
  | .specialStatus => c.specialStatus
  | .vector => if i = 0 then d.vector else d.modified
  | .buffer => c.received
  | .constantLow => c.constantLow
  | .constantHigh => c.constantHigh
  | .externalInterrupt => c.externalStatus

/-- A register of channel `i` is written (R564): WR2 and WR9 are the controller's, the others the channel's. -/
def SerialController.put (d : SerialController) (i : Fin 2) (r : SerialWrite) (v : Byte) : SerialController :=
  let c := d.channels.get i
  match r with
  | .commands => d.setChannel i { c with commands := v }
  | .interruptMode => d.setChannel i { c with interruptMode := v }
  | .vector => { d with vector := v }
  | .receive => d.setChannel i { c with receive := v }
  | .miscellaneous => d.setChannel i { c with miscellaneous := v }
  | .transmit => d.setChannel i { c with transmit := v }
  | .syncAddress => d.setChannel i { c with syncAddress := v }
  | .syncFlag => d.setChannel i { c with syncFlag := v }
  | .buffer => d.setChannel i { c with sent := v }
  | .master => { d with master := v }
  | .controlBits => d.setChannel i { c with controlBits := v }
  | .clockMode => d.setChannel i { c with clockMode := v }
  | .constantLow => d.setChannel i { c with constantLow := v }
  | .constantHigh => d.setChannel i { c with constantHigh := v }
  | .moreControlBits => d.setChannel i { c with moreControlBits := v }
  | .externalInterrupt => d.setChannel i { c with externalInterrupt := v }

/-- The 8530 changes a register that channel `i` gives (00_scope.md R6): not one that reads as written. -/
def SerialController.signal (d : SerialController) (i : Fin 2) (r : SerialRead) (v : Byte) : SerialController :=
  let c := d.channels.get i
  match r with
  | .bufferStatus => d.setChannel i { c with bufferStatus := v }
  | .specialStatus => d.setChannel i { c with specialStatus := v }
  | .vector => if i = 0 then d else { d with modified := v }
  | .buffer => d.setChannel i { c with received := v }
  | .constantLow => d
  | .constantHigh => d
  | .externalInterrupt => d.setChannel i { c with externalStatus := v }

/-- The code in WR0 of channel `i`: the number of the register that the next access at the control address reaches, 0 being
RR0 or WR0 itself (R564). That "the appropriate code" is the register's number, in the bits 0 to 4 that are cleared, the rule
does not say (log 35, DEDUCED). -/
def SerialController.code (d : SerialController) (i : Fin 2) : Nat :=
  ((d.channels.get i).commands.extractLsb' 0 5).toNat

/-- Bits 0 to 4 of WR0 of channel `i` are cleared (R564). -/
def SerialController.clearCode (d : SerialController) (i : Fin 2) : SerialController :=
  let c := d.channels.get i
  d.setChannel i { c with commands := c.commands &&& 0xE0 }

/-- A byte is written to channel `i` (R564). At the control address it goes to WR0 where the code is 0, and else to the
register that the code names, after which the code is cleared. A code above 15 names none: the byte goes nowhere (log 35,
DESIGN CHOICE). -/
def SerialController.write (d : SerialController) (i : Fin 2) (p : SerialPort) (v : Byte) : SerialController :=
  match p with
  | .data => d.put i .buffer v
  | .control =>
    if d.code i = 0 then d.put i .commands v
    else
      match SerialWrite.ofNumber (d.code i) with
      | some r => (d.put i r v).clearCode i
      | none => d.clearCode i

/-- A byte is read from channel `i` (R564): what it gives, and the controller after it. A code that names no register to be
read gives nothing, and is cleared (log 35, DESIGN CHOICE). -/
def SerialController.read (d : SerialController) (i : Fin 2) (p : SerialPort) : SerialController × Option Byte :=
  match p with
  | .data => (d, some (d.get i .buffer))
  | .control => (d.clearCode i, (SerialRead.ofNumber (d.code i)).map (d.get i))

/-! ## Disk controller -/

/-- The conditions of Command/Status (R566). -/
inductive DiskCondition where
  | headerSyncError
  | headerAddressError
  | headerCrcError
  | dataSyncError
  | dataCrcError
  | overrunError
  | illegalMemoryAccess
  | controllerReady
  | diskReady
  | diskSelected
  | seekError
  | writeError
  | diskFault
  deriving DecidableEq, Repr

/-- The bit of Command/Status that a condition is (R566). -/
def DiskCondition.bit : DiskCondition → Nat
  | .headerSyncError => 3
  | .headerAddressError => 4
  | .headerCrcError => 5
  | .dataSyncError => 6
  | .dataCrcError => 7
  | .overrunError => 8
  | .illegalMemoryAccess => 9
  | .controllerReady => 10
  | .diskReady => 11
  | .diskSelected => 12
  | .seekError => 13
  | .writeError => 14
  | .diskFault => 15

/-- The disk controller (R566): its registers, and the 512 halfwords of the block of 1024 bytes that it moves between a
disk and memory. The command format is lost (91_not_in_source.md N18), so that which transfer a command asks for is the
environment's. -/
structure DiskController where
  /-- 0x18 disables it and 0x1A enables it; while it is disabled it moves no data and completes no access (log 35, DEDUCED)
  -/
  enabled : Bool
  /-- the command as last written -/
  command : Half
  /-- the conditions, bits 3 to 15 of Command/Status -/
  conditions : BitVec 13
  control : BitVec 8
  lowAddress : Half
  highAddress : Half
  headSector : Half
  cylinder : Half
  block : Vector Half 512
  deriving DecidableEq, Repr

/-- The controller after reset. -/
def DiskController.reset : DiskController := ⟨false, 0, 0, 0, 0, 0, 0, 0, Vector.replicate 512 0⟩

/-- The memory address of halfword `i` of the block: the High and Low Memory Address registers are the block's (R566 (3),
(4)). -/
def DiskController.address (d : DiskController) (i : Fin 512) : Nat :=
  (d.highAddress ++ d.lowAddress).toNat + 2 * i.val

/-- A condition is set (R566 (1)). -/
def DiskController.signal (d : DiskController) (c : DiskCondition) : DiskController :=
  { d with conditions := d.conditions ||| BitVec.twoPow 13 (c.bit - 3) }

/-- Command/Status as read: the command's low three bits below the conditions (R566 (1)). -/
def DiskController.commandStatus (d : DiskController) : Half := d.conditions ++ d.command.setWidth 3

/-- A condition holds (R566 (1)). -/
def DiskController.has (d : DiskController) (c : DiskCondition) : Bool := d.commandStatus.getLsbD c.bit

/-- The unit that Control selects (R566 (2)). -/
def DiskController.unit (d : DiskController) : BitVec 2 := d.control.setWidth 2

/-- The offsets and strobes that Control asks for: servo offset + and -, data strobe early and late (R566 (2)). -/
def DiskController.offsets (d : DiskController) : Bool × Bool × Bool × Bool :=
  (d.control.getLsbD 4, d.control.getLsbD 5, d.control.getLsbD 6, d.control.getLsbD 7)

/-- A write to a register of the controller (R566). What bits 2 and 3 of Control do, and read, where the 80286 writes 1 to
them although they must be 0, the spec does not say: the model keeps them as written, and nothing looks at them (log 35,
DESIGN CHOICE). -/
def DiskController.write (d : DiskController) (a : Nat) (v : Half) : Option DiskController :=
  match a with
  | 0x00 => some { d with command := v }
  | 0x02 => some { d with control := v.setWidth 8 }
  | 0x04 => some { d with lowAddress := v }
  | 0x06 => some { d with highAddress := v }
  | 0x08 => some { d with headSector := v }
  | 0x0A => some { d with cylinder := v }
  | 0x18 => some { d with enabled := false }
  | 0x1A => some { d with enabled := true }
  | _ => none

/-- A read of a register of the controller (R566). Bits 2 and 3 of Control, which must be 0, read as
written (`DiskController.write`; log 35, DESIGN CHOICE). The spec names bits 0 to 7 of Control only, and says that a read of Low
Memory Address may not be valid while the controller is busy: the model holds no other bits of Control and reads them as
0, and has no busy controller, so that each address register reads as written (log 35, DESIGN CHOICE). -/
def DiskController.read (d : DiskController) (a : Nat) : Option Half :=
  match a with
  | 0x00 => some d.commandStatus
  | 0x02 => some (d.control.setWidth 16)
  | 0x04 => some d.lowAddress
  | 0x06 => some d.highAddress
  | 0x08 => some d.headSector
  | 0x0A => some d.cylinder
  | _ => none

/-! ## Temperature sensors -/

/-- A sensor as an access names it: the address, by its bits 2 and 1, and the sensor (R569). -/
structure SensorChoice where
  address : BitVec 2
  sensor : Fin 16
  deriving DecidableEq, Repr

/-- The sixteen sensors (R569). -/
structure Sensors where
  /-- what has been written once and waits to be written again -/
  selected : Option SensorChoice
  /-- what was sensed last, and the temperature measured then -/
  sensed : SensorChoice
  measured : Byte
  /-- the temperatures at the sensors -/
  temperatures : Vector Byte 16
  deriving DecidableEq, Repr

/-- The sensors after reset. -/
def Sensors.reset : Sensors := ⟨none, ⟨0, 0⟩, 0, Vector.replicate 16 0⟩

/-- Which of the addresses 0x38, 0x3A, 0x3C, 0x3E an I/O address is (R569). -/
def sensorAddress (a : Nat) : Option (BitVec 2) :=
  match a with
  | 0x38 => some 0
  | 0x3A => some 1
  | 0x3C => some 2
  | 0x3E => some 3
  | _ => none

/-- A write to a sensor address (R569): the first selects the sensor; a second one to the same address for the same
sensor, whatever its bits 4 to 15, which do not care, senses it, of which the answer's second part tells. Any other write
selects anew. Of a write after a sensor has been sensed the source says nothing: the model has forgotten the selection
then, so that sensing again takes two writes again (log 35, DESIGN CHOICE). -/
def Sensors.write (s : Sensors) (a : BitVec 2) (v : Half) : Sensors × Bool :=
  let c : SensorChoice := ⟨a, (v.setWidth 4).toFin⟩
  if s.selected = some c then
    ({ s with selected := none, sensed := c, measured := s.temperatures.get c.sensor }, true)
  else ({ s with selected := some c }, false)

/-- A read of a sensor address: the measured temperature, at the address it was sensed through (R569); the reserved bits
read 0 (log 35). -/
def Sensors.read (s : Sensors) (a : BitVec 2) : Option Half :=
  if a = s.sensed.address then some (s.measured.setWidth 16) else none

/-! ## Real time clock -/

/-- The real time clock as the source gives it (R570). The widths of the time registers are not in the source: each holds
a decimal digit here, in 4 bits, and reads 0 above them (log 35, DESIGN CHOICE). When its digits move and when its
interrupt falls due is the chip's, which the model does not have (00_scope.md R6): both are events, which Control gates. -/
structure Clock where
  /-- Control bits 0..3 as last written: interrupt stop, select interrupt register, clock stop, test mode -/
  control : BitVec 4
  interruptFlag : Bool
  dataChanged : Bool
  /-- the clock set register: hour mode, AM/PM, leap year counter -/
  set : BitVec 4
  /-- the interrupt register: period, single or repeated -/
  period : BitVec 4
  /-- the digits from tenths of seconds to day of week, by I/O address from 0x42 up -/
  digits : Vector (BitVec 4) 14
  /-- the interrupt has been given since the interrupt register was written, after which a single one is not given again
  (the model's own, log 35, DESIGN CHOICE) -/
  given : Bool
  deriving DecidableEq, Repr

/-- The clock after reset. -/
def Clock.reset : Clock := ⟨0, false, false, 0, 0, Vector.replicate 14 0, false⟩

/-- The clock's digits may move: Control bit 2 is 0, clock run (R570 (1)). -/
def Clock.runs (c : Clock) : Bool := !c.control.getLsbD 2

/-- The clock's interrupt may be given: Control bit 0 is 0, interrupt run, a period is selected, and the interrupt is a
repeated one or the first (R570 (1), (2)). -/
def Clock.interrupts (c : Clock) : Bool :=
  !c.control.getLsbD 0 && c.period.extractLsb' 0 3 != 0 && (c.period.getLsbD 3 || !c.given)

/-- The clock moves its digits, while it runs. What sets the data changed flag the spec does not say: the model sets it
here, and not where the 80286 writes a digit (log 35, DESIGN CHOICE). -/
def Clock.move (c : Clock) (digits : Vector (BitVec 4) 14) : Clock :=
  if c.runs then { c with digits := digits, dataChanged := true } else c

/-- The clock's digit at an I/O address 0x42, 0x44, … 0x5C (R570 (3)). -/
def clockDigit (a : Nat) : Option (Fin 14) :=
  if h : 0x42 ≤ a ∧ a ≤ 0x5C ∧ a % 2 = 0 then some ⟨(a - 0x42) / 2, by omega⟩ else none

/-- A write to the clock (R570): its control, the register that control bit 1 selects, or a digit other than the tenths
of seconds, which can only be read. -/
def Clock.write (c : Clock) (a : Nat) (v : Half) : Option Clock :=
  if a = 0x40 then some { c with control := v.setWidth 4 }
  else if a = 0x5E then
    some
      (if c.control.getLsbD 1 then { c with period := v.setWidth 4, given := false }
       else { c with set := v.setWidth 4 })
  else
    (clockDigit a).map fun (d : Fin 14) =>
      if d = 0 then c else { c with digits := c.digits.set d.val (v.setWidth 4) d.isLt }

/-- A read of the clock (R570). Bits 4 to 15 of Set/Interrupt, 0x5E, which the spec does not give, and those of
Control/Status, 0x40, which it calls reserved, read 0 (log 35, DESIGN CHOICE). -/
def Clock.read (c : Clock) (a : Nat) : Option Half :=
  if a = 0x40 then some ((BitVec.ofBool c.dataChanged ++ 0#2 ++ BitVec.ofBool c.interruptFlag).setWidth 16)
  else if a = 0x5E then some ((if c.control.getLsbD 1 then c.period else c.set).setWidth 16)
  else (clockDigit a).map fun (d : Fin 14) => (c.digits.get d).setWidth 16

/-! ## Timers -/

/-- The registers of the timers' 8254 (R571). Their width is not in the source: each holds the 16 bits of an access (log 35,
DESIGN CHOICE). That the timers count, and when one ends, is the 8254's (00_scope.md R6): events of the board. -/
structure Timers where
  prescaler : Half
  watchdog : Half
  schedule : Half
  /-- can only be written -/
  control : Half
  deriving DecidableEq, Repr

/-- The timers after reset. -/
def Timers.reset : Timers := ⟨0, 0, 0, 0⟩

/-- A register of the timers. -/
def Timers.get (d : Timers) : TimerRegister → Half
  | .prescaler => d.prescaler
  | .watchdog => d.watchdog
  | .schedule => d.schedule
  | .control => d.control

/-- A register of the timers set. -/
def Timers.put (d : Timers) (r : TimerRegister) (v : Half) : Timers :=
  match r with
  | .prescaler => { d with prescaler := v }
  | .watchdog => { d with watchdog := v }
  | .schedule => { d with schedule := v }
  | .control => { d with control := v }

/-- The 8254 changes a register that can be read, by counting (00_scope.md R6). -/
def Timers.signal (d : Timers) (r : TimerRegister) (v : Half) : Timers := if r = .control then d else d.put r v

/-- A 16-bit write to a register of the timers. -/
def Timers.write (d : Timers) (a : Nat) (v : Half) : Option Timers := (TimerRegister.ofAddress a).map fun r => d.put r v

/-- A write of a byte: the low one, the high one staying (log 35, DESIGN CHOICE). -/
def Timers.writeByte (d : Timers) (a : Nat) (v : Byte) : Option Timers :=
  (TimerRegister.ofAddress a).map fun r => d.put r ((d.get r).extractLsb' 8 8 ++ v)

/-- A 16-bit read of a register of the timers; of Control, which can only be written, nothing. That a register reads as it
was last set the rule does not say (log 35, DESIGN CHOICE). -/
def Timers.read (d : Timers) (a : Nat) : Option Half :=
  (TimerRegister.ofAddress a).bind fun r => if r = .control then none else some (d.get r)

/-- A read of a byte: the low one (log 35, DESIGN CHOICE). -/
def Timers.readByte (d : Timers) (a : Nat) : Option Byte := (d.read a).map (BitVec.setWidth 8)

/-! ## Interrupt controllers -/

/-- The registers of an interrupt controller, by the names that the rules give them (R572, R585). -/
inductive ControlWord where
  | icw1
  | icw2
  | icw3
  | icw4
  | ocw2
  | ocw3
  | mask
  deriving DecidableEq, Repr

/-- One 8259A (R572, R585): what was last written to each of its registers. -/
structure InterruptController where
  icw1 : Byte
  icw2 : Byte
  icw3 : Byte
  icw4 : Byte
  ocw2 : Byte
  ocw3 : Byte
  mask : Byte
  /-- the register that the next byte at the second address goes to, where that is not the mask (the model's own) -/
  awaits : Option ControlWord
  deriving DecidableEq, Repr

/-- A controller after reset. -/
def InterruptController.reset : InterruptController := ⟨0, 0, 0, 0, 0, 0, 0, none⟩

/-- The register that a byte written to a port goes to. The rules name the registers at each of the two addresses and not
which of them a byte is for: it is as in the family's 8259A, by bits 4 and 3 of the byte at the first address, and at the
second by the order that ICW1 begins (log 35, PRESUMED). -/
def InterruptController.chosen (c : InterruptController) (p : ControllerPort) (v : Byte) : ControlWord :=
  match p with
  | .first => if v.getLsbD 4 then .icw1 else if v.getLsbD 3 then .ocw3 else .ocw2
  | .second => c.awaits.getD .mask

/-- ICW4 follows where bit 0 of ICW1 says so (log 35, PRESUMED). -/
def InterruptController.beforeIcw4 (c : InterruptController) : Option ControlWord :=
  if c.icw1.getLsbD 0 then some .icw4 else none

/-- A byte is written to a port. ICW1 begins the order ICW2, ICW3 unless its bit 1 says there is none, ICW4 if its bit 0 says
so, and clears the mask, as in the family's 8259A (log 35, PRESUMED). What the registers make the controller do is the
8259A's (00_scope.md R6): no interrupt is held back by them here (log 35, DESIGN CHOICE). -/
def InterruptController.write (c : InterruptController) (p : ControllerPort) (v : Byte) : InterruptController :=
  match c.chosen p v with
  | .icw1 => { c with icw1 := v, mask := 0, awaits := some .icw2 }
  | .icw2 => { c with icw2 := v, awaits := if c.icw1.getLsbD 1 then c.beforeIcw4 else some .icw3 }
  | .icw3 => { c with icw3 := v, awaits := c.beforeIcw4 }
  | .icw4 => { c with icw4 := v, awaits := none }
  | .ocw2 => { c with ocw2 := v }
  | .ocw3 => { c with ocw3 := v }
  | .mask => { c with mask := v }

/-- The five 8259As of a board (R572, R585). -/
structure InterruptControllers where
  master : InterruptController
  slave0 : InterruptController
  slave1 : InterruptController
  /-- the main array's, of the low and of the high data byte -/
  mainLow : InterruptController
  mainHigh : InterruptController
  /-- what the master and the slaves answer at their first address, which is their own doing (00_scope.md R6) -/
  masterAnswer : Byte
  slave0Answer : Byte
  slave1Answer : Byte
  deriving DecidableEq, Repr

/-- The controllers after reset. -/
def InterruptControllers.reset : InterruptControllers := ⟨.reset, .reset, .reset, .reset, .reset, 0, 0, 0⟩

/-- A byte is written to a controller's address: the master and the slaves have byte access only (R572), those of the main
array have none (R585). -/
def InterruptControllers.writeByte (d : InterruptControllers) (a : Nat) (v : Byte) : Option InterruptControllers :=
  match Controller.ofAddress a with
  | some (.master, p) => some { d with master := d.master.write p v }
  | some (.slave0, p) => some { d with slave0 := d.slave0.write p v }
  | some (.slave1, p) => some { d with slave1 := d.slave1.write p v }
  | some (.mainArray, _) => none
  | none => none

/-- What a port of a controller reads as: its answer, or its mask (log 35, DESIGN CHOICE). -/
def InterruptController.read (c : InterruptController) (answer : Byte) : ControllerPort → Byte
  | .first => answer
  | .second => c.mask

/-- A byte is read from a controller's address (R572). -/
def InterruptControllers.readByte (d : InterruptControllers) (a : Nat) : Option Byte :=
  match Controller.ofAddress a with
  | some (.master, p) => some (d.master.read d.masterAnswer p)
  | some (.slave0, p) => some (d.slave0.read d.slave0Answer p)
  | some (.slave1, p) => some (d.slave1.read d.slave1Answer p)
  | some (.mainArray, _) => none
  | none => none

/-- A 16-bit write: the main array's controllers, side by side, have 16-bit access only (R585), the others none (R572). -/
def InterruptControllers.write (d : InterruptControllers) (a : Nat) (v : Half) : Option InterruptControllers :=
  match Controller.ofAddress a with
  | some (.mainArray, p) =>
    some
      { d with
          mainLow := d.mainLow.write p (v.setWidth 8)
          mainHigh := d.mainHigh.write p (v.extractLsb' 8 8) }
  | _ => none

/-- A 16-bit read, where `levels` is on the error lines of the array boards, level L of a data byte at its bit L (R585): the
levels at 0xC4, whatever the commands written ask for, and the masks at 0xC6 (log 35, DESIGN CHOICE). -/
def InterruptControllers.read (d : InterruptControllers) (levels : Half) (a : Nat) : Option Half :=
  match Controller.ofAddress a with
  | some (.mainArray, p) =>
    some
      (d.mainHigh.read (levels.extractLsb' 8 8) p ++ d.mainLow.read (levels.setWidth 8) p)
  | _ => none

/-- The master or a slave changes what it answers (00_scope.md R6). -/
def InterruptControllers.signal (d : InterruptControllers) (c : Controller) (v : Byte) : InterruptControllers :=
  match c with
  | .master => { d with masterAnswer := v }
  | .slave0 => { d with slave0Answer := v }
  | .slave1 => { d with slave1Answer := v }
  | .mainArray => d

end Sys2Proof.Machine
end

