-- ==== Sys2Proof/Machine/Board.lean ====
section
/-! DEFINITION. One System Control Board (61_system_platform.md R546, R555 to R575): its memory, the registers whose
effect the source gives, the interrupts pending for its 80286, the local nodes with the window into their memory, and its
reset. The 80286, 80287, 82258, 8530, 8259A, 8254 and the SBX modules are out of scope (00_scope.md R6): what they do on
their own is an event here. The registers that the source gives the 82258, the 8530s, the 8259As and the 8254 are the
board's, and their I/O addresses reach them (R563, R564, R571, R572, R585); those of the SBX modules and the 80287, which
have none in the source, answer `none`. -/

namespace Sys2Proof.Machine

open Sys2Proof

/-- One System Control Board (R555 to R575). -/
structure Board where
  /-- its I/O slot (R567 (4)) -/
  slot : Fin 8
  /-- the system ID: 13 low bits and 8 high bits (R567 (4), (5)) -/
  systemLow : BitVec 13
  systemHigh : BitVec 8
  /-- the system RAM: the byte at address `a` stands at `a + 1`, so that what is not listed reads 0 (R558, log 35) -/
  ram : Memory
  /-- the check bits of the system RAM: those of halfword `k` stand at `k + 1`, a halfword of zeros having zeros (R568) -/
  check : Memory
  /-- what the PROM sockets hold, by 80286 address (R557) -/
  eprom : List Host.Cell
  /-- the Array Reset register as last written (R567 (1)) -/
  arrayReset : Half
  /-- the Control register (R567 (2)) -/
  control : Half
  /-- the power good bits 0..9 of Reset/Status (R567 (3)) -/
  powerGood : BitVec 10
  /-- main power is good (R562) -/
  mainPower : Bool
  /-- the latched NMI causes, bit i for status bit 10 + i, 1 = active (R567 (3)) -/
  nmi : BitVec 6
  /-- the system memory ECC syndrome (R568) -/
  syndrome : BitVec 8
  printer : PrinterPort
  /-- the DMA controller (R563) -/
  dma : DmaController
  /-- the four controllers of the eight serial channels (R564) -/
  serial : Vector SerialController 4
  disk : DiskController
  sensors : Sensors
  clock : Clock
  /-- the watchdog and the schedule timer (R571) -/
  timers : Timers
  /-- the five interrupt controllers (R572, R585) -/
  controllers : InterruptControllers
  /-- the interrupts that devices have raised and the 80286 has not taken, the oldest first (R573) -/
  pending : List HostInterrupt
  /-- the channels of the local nodes that join each order-3 cube (R546, N17) -/
  localChannels : Vector (Fin 11) 3
  /-- the sixteen local nodes (R546) -/
  nodes : Vector State 16
  deriving DecidableEq, Repr

/-! ## Local nodes -/

/-- The local nodes with node `k` replaced. -/
def Board.setNode (b : Board) (k : Fin 16) (s : State) : Board := { b with nodes := b.nodes.set k.val s k.isLt }

/-- The dimension that channel `c` of the local nodes carries, if any (R546). -/
def Board.dimension (b : Board) (c : Fin 11) : Option (Fin 3) :=
  (List.finRange 3).find? fun d => b.localChannels.get d == c

/-- Bit 14 of Control does not hold the local nodes in reset (R567 (2)). -/
def Board.localsRun (b : Board) : Bool := b.control.getLsbD 14

/-- A halfword reaches channel `c` of local node `k`; while the node is held in reset it is lost (D62). -/
def Board.receive (b : Board) (k : Fin 16) (c : Fin 11) (h : Half) (bad : Bool) : Board :=
  if b.localsRun then b.setNode k ((b.nodes.get k).receive c h bad) else b

/-- The head of the link of local node `k` across dimension `d` reaches the neighbour (R546). -/
def Board.deliver (b : Board) (k : Fin 16) (d : Fin 3) (bad : Bool) : Board :=
  let c := b.localChannels.get d
  match ((b.nodes.get k).outPort c).link with
  | [] => b
  | h :: _ => (b.setNode k ((b.nodes.get k).takeLink c)).receive (localNeighbour k d) c h bad

/-- The local nodes as their reset line leaves them (R620, R621): what they have sent to the array is still on its way
(R470), what they have sent to each other is lost (D62). -/
def Board.resetLocals (b : Board) : Board :=
  { b with nodes := b.nodes.map fun s => s.hardReset.dropLinks fun c => (b.dimension c).isSome }

/-! ## System RAM -/

/-- The `n` bytes at `a` lie in the system RAM (R558). -/
def inRam (n a : Nat) : Bool := decide (a + n ≤ 0x200000)

/-- The system RAM's errors are corrected (R567 (2), bit 0). -/
def Board.correctsErrors (b : Board) : Bool := !b.control.getLsbD 0

/-- The system RAM's check bits are written (R567 (2), bit 1). -/
def Board.writesCheckBits (b : Board) : Bool := !b.control.getLsbD 1

/-- A cause of the nonmaskable interrupt is latched: bit `i` for status bit `10 + i` (R567 (3)). -/
def Board.latch (b : Board) (i : Fin 6) : Board := { b with nmi := b.nmi ||| BitVec.twoPow 6 i.val }

/-- Halfword `k` of the system RAM as it is stored. -/
def Board.ramStored (b : Board) (k : Nat) : Half := BitVec.ofNat 16 (b.ram.readN (2 * k + 1) 2)

/-- The check bits of halfword `k` as they are stored. -/
def Board.ramCheck (b : Board) (k : Nat) : BitVec 6 := (b.check.read (k + 1)).setWidth 6

/-- Halfword `k` and its check bits as given. -/
def Board.ramSet (b : Board) (k : Nat) (data : Half) (check : BitVec 6) : Board :=
  { b with ram := b.ram.writeN (2 * k + 1) 2 data.toNat, check := b.check.write (k + 1) (check.setWidth 8) }

/-- The syndrome of halfword `k` (R568): how its check bits differ from those that its data have. -/
def Board.ramSyndrome (b : Board) (k : Nat) : BitVec 6 := b.ramCheck k ^^^ checkBits (b.ramStored k)

/-- Halfword `k` as an access gets it: with an error in one data bit corrected, where errors are corrected (R567 (2)). -/
def Board.ramHalf (b : Board) (k : Nat) : Half :=
  match syndromeOf ((b.ramSyndrome k).setWidth 8) with
  | .data n => if b.correctsErrors then b.ramStored k ^^^ BitVec.twoPow 16 n else b.ramStored k
  | _ => b.ramStored k

/-- Halfword `k` is read: an error in it is an NMI cause, with its syndrome and bank (R567 (3), R568), whether it is
corrected or not; one that was there is replaced (log 35, DESIGN CHOICE). -/
def Board.ramNote (b : Board) (k : Nat) : Board :=
  if b.ramSyndrome k = 0 then b else { b with syndrome := Config.ramBank k ++ b.ramSyndrome k }.latch 1

/-- The byte at `a` of the system RAM as an access gets it. -/
def Board.ramByte (b : Board) (a : Nat) : Byte :=
  if a % 2 = 0 then (b.ramHalf (a / 2)).setWidth 8 else (b.ramHalf (a / 2)).extractLsb' 8 8

/-- Halfword `k` is written, and its check bits where they are written (R567 (2), bit 1). -/
def Board.ramPutHalf (b : Board) (k : Nat) (new : Half) : Board :=
  b.ramSet k new (if b.writesCheckBits then checkBits new else b.ramCheck k)

/-- A byte alone is written: its halfword as an access gets it, with the byte in place. Whether an error that the error
correction finds in the other byte is reported then, as an NMI cause with its syndrome, R567 and R568 do not say: the model
reports errors of reads only, and none here (log 35, DESIGN CHOICE). -/
def Board.ramPut (b : Board) (a : Nat) (v : Byte) : Board :=
  let old := b.ramHalf (a / 2)
  b.ramPutHalf (a / 2) (if a % 2 = 0 then old.extractLsb' 8 8 ++ v else v ++ old.setWidth 8)

/-- The little-endian number of the `n` bytes at `a`. -/
def Board.ramBytes (b : Board) (a : Nat) : Nat → Nat
  | 0 => 0
  | n + 1 => (b.ramByte a).toNat + 256 * b.ramBytes (a + 1) n

/-- The `n` low bytes of `v` written from `a` up, a halfword at a time where both its bytes are written. -/
def Board.ramPuts (b : Board) (a v : Nat) : Nat → Board
  | 0 => b
  | 1 => b.ramPut a (BitVec.ofNat 8 v)
  | n + 2 =>
    if a % 2 = 0 then (b.ramPutHalf (a / 2) (BitVec.ofNat 16 v)).ramPuts (a + 2) (v / 0x10000) n
    else (b.ramPut a (BitVec.ofNat 8 v)).ramPuts (a + 1) (v / 256) (n + 1)

/-- A read of `n` bytes of the system RAM, by the 80286 or by the disk controller (R558): what it gives, and the board after
it; outside the RAM, nothing. -/
def Board.ramRead (b : Board) (n a : Nat) : Board × Option Nat :=
  if inRam n a then
    (((List.range n).map fun i => (a + i) / 2).foldl Board.ramNote b, some (b.ramBytes a n))
  else (b, none)

/-- A write of `n` bytes of the system RAM (R558); none outside it. -/
def Board.ramWrite (b : Board) (n a v : Nat) : Option Board := if inRam n a then some (b.ramPuts a v n) else none

/-! ## The local nodes' memory -/

/-- What something that reaches the local nodes' memory ends in: or in the fault of a local node, past whose memory the access
is (20_memory.md R80, D25). -/
abbrev Reaches (α : Type) := Except (Fin 16 × Fault) α

/-- What an access to local node `k` ends in, as one of the board. -/
def Reaches.ofNode {α β : Type} (k : Fin 16) (f : α → β) : Except Fault α → Reaches β
  | .ok v => .ok (f v)
  | .error e => .error (k, e)

/-- A read of 16 bits through the window of the local nodes (R560), which may have fallen within the last step of the node
(R86, R96; log 10): what it gives, and the board after it. It gives nothing outside the window, at an odd address, and while
the nodes are held in reset, when external requests are ignored (R620); past a node's memory it is that node's fault
(R80). -/
def Board.windowRead (b : Board) (a : Nat) : Reaches (Board × Option Half) :=
  match windowByte a with
  | some (k, x) =>
    if x % 2 = 0 && b.localsRun then
      Reaches.ofNode k (fun r => (b.setNode k r.1, some r.2)) ((b.nodes.get k).hostTake (x / 2))
    else .ok (b, none)
  | none => .ok (b, none)

/-- A write of 16 bits through the window (R560, R605), after which the reads before it are done with. Nothing is said of one
outside the window or at an odd address; one while the nodes are held in reset is ignored (R620); past a node's memory it is
that node's fault (R80). -/
def Board.windowWrite (b : Board) (a : Nat) (h : Half) : Reaches (Option Board) :=
  match windowByte a with
  | some (k, x) =>
    if x % 2 = 0 then
      if b.localsRun then
        match hostWriteStep (x / 2) h (b.nodes.get k) with
        | .next s => .ok (some (b.setNode k { s with hostReads := [] }))
        | .fault f => .error (k, f)
        | .refused _ => .ok none
      else .ok (some b)
    else .ok none
  | none => .ok none

/-! ## Disk controller -/

/-- The disk controller cannot access address `a` now. Where it reaches no memory there, that is its condition Illegal
Memory Access (R566 (1); log 35, DEDUCED). An odd address of the window, whose accesses are of 16 bits only (R560), moves
nothing and sets no condition (log 35, DESIGN CHOICE). R567 does not say by whose attempt to access the memory between the
RAM and the PROM NMI cause 10 is latched: the model latches it for the 80286's accesses alone, and the disk controller's
set their own condition only (log 35, DESIGN CHOICE). -/
def Board.diskFails (b : Board) (a : Nat) : Board :=
  if inRam 2 a || (windowByte a).isSome then b else { b with disk := b.disk.signal .illegalMemoryAccess }

/-- The disk controller's read of the halfword at `a`, in the system RAM (R558) or the memory of a local node (R560). -/
def Board.diskRead (b : Board) (a : Nat) : Reaches (Board × Option Half) :=
  match b.ramRead 2 a with
  | (t, some v) => .ok (t, some (BitVec.ofNat 16 v))
  | (t, none) => t.windowRead a

/-- The disk controller's write of the halfword at `a`. -/
def Board.diskWrite (b : Board) (a : Nat) (h : Half) : Reaches (Option Board) :=
  match b.ramWrite 2 a h.toNat with
  | some t => .ok (some t)
  | none => b.windowWrite a h

/-- Halfword `i` of the block that came from a disk goes to memory (R566); past the memory of a local node that is the node's
fault (R80). -/
def Board.diskStore (b : Board) (i : Fin 512) : Reaches Board :=
  (b.diskWrite (b.disk.address i) (b.disk.block.get i)).map fun t => t.getD (b.diskFails (b.disk.address i))

/-- Halfword `i` of the block that is to go to a disk comes from memory (R566); past the memory of a local node that is the
node's fault (R80). -/
def Board.diskFetch (b : Board) (i : Fin 512) : Reaches Board :=
  (b.diskRead (b.disk.address i)).map fun
    | (t, some h) => { t with disk := { t.disk with block := t.disk.block.set i.val h i.isLt } }
    | (t, none) => t.diskFails (b.disk.address i)

/-! ## Interrupts -/

/-- The interrupt of a device becomes pending; one that is pending already stays (log 35). -/
def Board.raise (b : Board) (i : HostInterrupt) : Board :=
  { b with pending := if i ∈ b.pending then b.pending else b.pending ++ [i] }

/-- An access of the 80286 to the memory between the RAM and the PROM (R567 (2)): latched where bit 4 is 1 and nonmaskable
interrupts are enabled. That the disk controller's accesses there do not come here is the model's choice (log 35, DESIGN
CHOICE; `Board.diskFails`). -/
def Board.latchReserved (b : Board) : Board := if b.control.getLsbD 4 && b.control.getLsbD 6 then b.latch 0 else b

/-- The front panel interrupt (R567 (2)), under the same condition with bit 5. -/
def Board.latchPanel (b : Board) : Board := if b.control.getLsbD 5 && b.control.getLsbD 6 then b.latch 3 else b

/-- Nonmaskable interrupts are enabled and one of their causes is active (R567 (2), (3)). -/
def Board.nonMaskable (b : Board) : Bool := b.control.getLsbD 6 && b.nmi != 0

/-- What the 80286 may take: the nonmaskable interrupt and what its devices have raised (R573). -/
def Board.interrupts (b : Board) : List HostInterrupt :=
  (if b.nonMaskable then [.nonMaskable] else []) ++ b.pending

/-- What happens on the board other than by an access of its 80286 or a step of a local node. -/
inductive BoardEvent where
  /-- the front panel's interrupt button (R567) -/
  | frontPanel
  /-- the watchdog timer ends (R571) -/
  | watchdog
  /-- the power fails (R575) -/
  | powerFail
  /-- bits of halfword `k` of the system RAM and of its check bits are reversed by an error (R568) -/
  | ramError (k : Fin 0x100000) (data : Half) (check : BitVec 6)
  /-- the board finds an error in the memory of the local nodes (R567 (3)). Whether that is an ECC error of a node's own
  (60_exceptions.md R495) R567 does not say: the model ties neither to the other (log 35, DESIGN CHOICE) -/
  | localEcc
  /-- what the power supplies' sense lines say (R562, R567 (3), R575) -/
  | power (good : BitVec 10) (main : Bool)
  /-- the mode switch (R562) -/
  | modeSwitch (diagnostic : Bool)
  /-- the printer's lines (R562) -/
  | printerLines (data : Byte) (conditions : BitVec 4)
  /-- the 82258 changes one of its registers, as from a command block in memory (R563) -/
  | dma (r : DmaName) (v : BitVec 24)
  /-- the 8254 changes a register that can be read (R571) -/
  | timer (r : TimerRegister) (v : Half)
  /-- the master or a slave changes what it answers (R572) -/
  | controllerAnswers (c : Controller) (v : Byte)
  /-- the 8530 of serial channel `c` changes a register that the channel gives (R564) -/
  | serial (c : Fin 8) (r : SerialRead) (v : Byte)
  /-- the conditions of the disks and of the controller change (R566) -/
  | diskStatus (conditions : BitVec 13)
  /-- a block read from a disk is in the controller (R566) -/
  | diskBlock (block : Vector Half 512)
  /-- the controller moves halfword `i` of its block to memory (R558, R560, R566) -/
  | diskStore (i : Fin 512)
  /-- the controller moves a halfword of memory to halfword `i` of its block (R558, R560, R566) -/
  | diskFetch (i : Fin 512)
  /-- a disk access completes (R566) -/
  | diskComplete
  /-- the temperature at a sensor (R569) -/
  | temperature (n : Fin 16) (t : Byte)
  /-- the clock chip moves its digits (R570) -/
  | clockMoves (digits : Vector (BitVec 4) 14)
  /-- the clock's interrupt falls due (R570) -/
  | clockDue
  /-- the clock's flags are cleared, by what the source does not say (R570) -/
  | clockCleared
  /-- an Error pin of the local nodes signals (R585) -/
  | localError
  /-- a unit whose behaviour is not in the source raises its interrupt (R573) -/
  | device (i : HostInterrupt)
  /-- the 80286 takes a pending interrupt -/
  | taken (i : HostInterrupt)
  deriving DecidableEq, Repr

/-- The local nodes' error lines signal, which raises vector 73 (R585). On a System Control Board the pin is grounded, so
that a node there cannot signal on its line (70_reset_and_hazards.md R622): `State.signalsError`. How lines that signal
combine is not in the source (log 35). -/
def Board.localErrorLine (b : Board) : Bool :=
  let lines := b.nodes.toList.map State.signalsError
  lines.any id && Config.localErrorLine lines

/-! ## Serial channels -/

/-- The controller of serial channel `c`, and which of its two channels that is (R564). -/
def serialPlace (c : Fin 8) : Fin 4 × Fin 2 := (⟨c.val / 2, by omega⟩, ⟨c.val % 2, by omega⟩)

/-- Serial controller `k` replaced. -/
def Board.setSerial (b : Board) (k : Fin 4) (d : SerialController) : Board :=
  { b with serial := b.serial.set k.val d k.isLt }

/-- A byte is written to a serial channel (R564); none where the address is no channel's. -/
def Board.writeSerial (b : Board) (a : Nat) (v : Byte) : Option Board :=
  (serialPort a).map fun (c, p) =>
    let (k, i) := serialPlace c
    b.setSerial k ((b.serial.get k).write i p v)

/-- The 8530 of serial channel `c` changes a register that the channel gives. -/
def Board.serialSignal (b : Board) (c : Fin 8) (r : SerialRead) (v : Byte) : Board :=
  let (k, i) := serialPlace c
  b.setSerial k ((b.serial.get k).signal i r v)

/-! ## Events -/

/-- The board after an event, or the fault of a local node past whose memory the disk controller's access is. A power
failure is an NMI cause and the Power Down Interrupt (R575); no way to clear its cause or the watchdog's is in the source, so only a system reset does (log 35). R567 says of the reserved-memory and front
panel causes alone that they are latched only while nonmaskable interrupts are enabled: the model latches the other four
whatever Control bit 6 is (log 35, DESIGN CHOICE). Nor does it say whether an ECC error of a local node, the event
correctedEcc or uncorrectable of that node, sets cause 12: the model latches it by the event localEcc alone (log 35, DESIGN
CHOICE). -/
def Board.event (b : Board) : BoardEvent → Reaches Board
  | .frontPanel => .ok b.latchPanel
  | .watchdog => .ok (b.latch 4)
  | .powerFail => .ok ((b.latch 5).raise .powerDown)
  | .ramError k data check => .ok (b.ramSet k (b.ramStored k ^^^ data) (b.ramCheck k ^^^ check))
  | .localEcc => .ok (b.latch 2)
  | .power good main => .ok { b with powerGood := good, mainPower := main }
  | .modeSwitch d => .ok { b with printer := { b.printer with diagnostic := d } }
  | .printerLines data conditions => .ok { b with printer := { b.printer with data := data, conditions := conditions } }
  | .dma r v => .ok { b with dma := b.dma.put r v }
  | .timer r v => .ok { b with timers := b.timers.signal r v }
  | .controllerAnswers c v => .ok { b with controllers := b.controllers.signal c v }
  | .serial c r v => .ok (b.serialSignal c r v)
  | .diskStatus conditions => .ok { b with disk := { b.disk with conditions := conditions } }
  | .diskBlock block => .ok (if b.disk.enabled then { b with disk := { b.disk with block := block } } else b)
  | .diskStore i => if b.disk.enabled then b.diskStore i else .ok b
  | .diskFetch i => if b.disk.enabled then b.diskFetch i else .ok b
  | .diskComplete => .ok (if b.disk.enabled then b.raise .disk else b)
  | .temperature n t =>
    .ok { b with sensors := { b.sensors with temperatures := b.sensors.temperatures.set n.val t n.isLt } }
  | .clockMoves digits => .ok { b with clock := b.clock.move digits }
  | .clockDue =>
    .ok
      (if b.clock.interrupts then
        { b with clock := { b.clock with interruptFlag := true, given := true } }.raise .realTimeClock
      else b)
  | .clockCleared => .ok { b with clock := { b.clock with interruptFlag := false, dataChanged := false } }
  | .localError => .ok (if b.localErrorLine then b.raise .localArrayError else b)
  | .device i => .ok (if i.external then b.raise i else b)
  | .taken i => .ok { b with pending := b.pending.erase i }

/-! ## Control and status -/

/-- The Control register is written (R567 (2)): bits 4 and 5 at zero reset the reserved-memory error and the front panel
interrupt, bit 14 at zero resets the local nodes. -/
def Board.writeControl (b : Board) (v : Half) : Board :=
  let t :=
    { b with
        control := v
        nmi := b.nmi &&& (if v.getLsbD 4 then 0x3F else 0x3E) &&& (if v.getLsbD 5 then 0x3F else 0x37) }
  if v.getLsbD 14 then t else t.resetLocals

/-- The two front panel lights (R567 (2)). -/
def Board.lights (b : Board) : Bool × Bool := (b.control.getLsbD 2, b.control.getLsbD 3)

/-- The power supplies that Control switches, bits 7 to 13 in order: -5 off, -24, disk -12, disk -5, -12, -5 and -12,
disk -12 (R567 (2), R575). -/
def Board.supplies (b : Board) : BitVec 7 := b.control.extractLsb' 7 7

/-- The fans are on (R567 (2), bit 15). -/
def Board.fans (b : Board) : Bool := !b.control.getLsbD 15

/-- The Reset/Status register as read (R567 (3)): an active NMI cause reads 0. -/
def Board.status (b : Board) : Half := ~~~b.nmi ++ b.powerGood

/-! ## I/O addresses -/

/-- A write to a temperature address (R569): sensing raises interrupt 86. -/
def Board.writeSensor (b : Board) (a : BitVec 2) (v : Half) : Board :=
  let r := b.sensors.write a v
  let t := { b with sensors := r.1 }
  if r.2 then t.raise .temperature else t

/-- A 16-bit write to an I/O address (R562 to R571, R585); none where the source does not say what happens. What it does
to the array and to the array's links is with the system's I/O write. -/
def Board.ioWrite (b : Board) (a : Nat) (v : Half) : Option Board :=
  match a with
  | 0x10 => some { b with arrayReset := v }
  | 0x12 => some (b.writeControl v)
  | 0x14 => some { b with printer := { b.printer with written := v } }
  | 0x16 => some { b with nmi := b.nmi &&& 0x3B }
  | 0x1C => some { b with nmi := b.nmi &&& 0x3D, syndrome := b.syndrome &&& 0xC0 }
  | _ =>
    ((sensorAddress a).map fun n => b.writeSensor n v).or
      (((b.disk.write a v).map fun d => { b with disk := d }).or
        (((b.clock.write a v).map fun c => { b with clock := c }).or
          (((b.timers.write a v).map fun d => { b with timers := d }).or
            (((b.controllers.write a v).map fun d => { b with controllers := d }).or
              ((b.dma.write a v).map fun d => { b with dma := d })))))

/-- A 16-bit read of an I/O address, where `levels` is on the error lines of the array boards; none where the source does not
say what it gives. Of 0x1A it gives bits 0 to 7: the model reads 0 above them, and above the syndrome (log 35, DESIGN
CHOICE). -/
def Board.ioRead (b : Board) (levels : Half) (a : Nat) : Option Half :=
  match a with
  | 0x10 => some b.arrayReset
  | 0x12 => some b.control
  | 0x14 => some (b.printer.read b.mainPower)
  | 0x16 => some b.status
  | 0x18 => some (b.systemLow ++ BitVec.ofNat 3 b.slot.val)
  | 0x1A => some (b.systemHigh.setWidth 16)
  | 0x1C => some (b.syndrome.setWidth 16)
  | _ =>
    ((sensorAddress a).bind b.sensors.read).or
      ((b.disk.read a).or
        ((b.clock.read a).or ((b.timers.read a).or ((b.controllers.read levels a).or (b.dma.read a)))))

/-- A write of a byte to an I/O address: the serial channels, the master and the slaves have byte access only (R564, R572);
the timers and the DMA controller have it as well, which their rules do not say (log 35, DESIGN CHOICE); of a write of a byte
to another register the source does not say what happens. -/
def Board.ioWriteByte (b : Board) (a : Nat) (v : Byte) : Option Board :=
  (b.writeSerial a v).or
    (((b.controllers.writeByte a v).map fun d => { b with controllers := d }).or
      (((b.timers.writeByte a v).map fun d => { b with timers := d }).or
        ((b.dma.writeByte a v).map fun d => { b with dma := d })))

/-- A read of a byte from an I/O address: what it gives, where the source or log 35 says it, and the board after it, which only
a serial channel's is not the one before (R564). -/
def Board.ioReadByte (b : Board) (a : Nat) : Board × Option Byte :=
  match serialPort a with
  | some (c, p) =>
    let (k, i) := serialPlace c
    let (d, v) := (b.serial.get k).read i p
    (b.setSerial k d, v)
  | none => (b, (b.controllers.readByte a).or ((b.timers.readByte a).or (b.dma.readByte a)))

/-! ## Memory of the 80286 -/

/-- What the PROM holds in the `n` bytes at `a` (R557); none where nothing is loaded. -/
def Board.promRead (b : Board) (n a : Nat) : Option Nat :=
  match n with
  | 0 => some 0
  | n + 1 =>
    match b.eprom.find? (fun c => c.1 == a), b.promRead n (a + 1) with
    | some c, some rest => some (c.2.toNat + 256 * rest)
    | _, _ => none

/-- A read of `n` bytes by the 80286 (R577): what it gives, where the source says it, and the board after it; past the memory
of a local node, that node's fault (R80). -/
def Board.memRead (b : Board) (n a : Nat) : Reaches (Board × Option Nat) :=
  match hostRegion a with
  | some .systemRam => .ok (b.ramRead n a)
  | some .localArray => if n = 2 then (b.windowRead a).map fun r => (r.1, r.2.map BitVec.toNat) else .ok (b, none)
  | some .reserved => .ok (b.latchReserved, none)
  | some .eprom => .ok (b, b.promRead n a)
  | none => .ok (b, none)

/-- A write of `n` bytes by the 80286 (R577); none where the source does not say what happens; past the memory of a local node,
that node's fault (R80). -/
def Board.memWrite (b : Board) (n a v : Nat) : Reaches (Option Board) :=
  match hostRegion a with
  | some .systemRam => .ok (b.ramWrite n a v)
  | some .localArray => if n = 2 then b.windowWrite a (BitVec.ofNat 16 v) else .ok none
  | some .reserved => .ok (some b.latchReserved)
  | some .eprom => .ok none
  | none => .ok none

/-! ## Reset -/

/-- The launch parameters of a local node: it stands on a System Control Board (R622), three of its channels lead to its
cube (R546), and those that `joined` names to the array (R547). -/
def localParams (localChannels : Vector (Fin 11) 3) (joined : Fin 11 → Bool) (cfg : Params) : Params :=
  let wired : Fin 11 → Bool := fun c => joined c || localChannels.toList.contains c
  { cfg with
      ioBoard := true
      wiring := Vector.ofFn fun c => outWire (wired c) (cfg.wiring.get c)
      inWired := Vector.ofFn wired }

/-- A System Control Board after a system reset, of which R575 says only that the board is initialized: every register
is 0, no power is sensed and nothing is pending (log 35, DESIGN CHOICE). Control is 0, so its local nodes are held in
reset. `joined` says which channels of which local node lead to a node of the array. -/
def Board.reset (slot : Fin 8) (systemLow : BitVec 13) (systemHigh : BitVec 8) (eprom : List Host.Cell)
    (localChannels : Vector (Fin 11) 3) (joined : Fin 16 → Fin 11 → Bool) (cfg : Params) : Board where
  slot := slot
  systemLow := systemLow
  systemHigh := systemHigh
  ram := []
  check := []
  eprom := eprom
  arrayReset := 0
  control := 0
  powerGood := 0
  mainPower := false
  nmi := 0
  syndrome := 0
  printer := .reset
  dma := .reset
  serial := Vector.replicate 4 .reset
  disk := .reset
  sensors := .reset
  clock := .reset
  timers := .reset
  controllers := .reset
  pending := []
  localChannels := localChannels
  nodes := Vector.ofFn fun k => State.resetWith (localParams localChannels (joined k) cfg)

/-- A board as there are: the three channels of its cubes are distinct and none leads to the array, every local node is a
System Control Board's, its memory and its check bits are in canonical form within the 2 megabytes, and its PROM lies in
the PROM's place. -/
def Board.wf (b : Board) : Bool :=
  decide b.localChannels.toList.Nodup && b.localChannels.all (fun c => decide (8 ≤ c.val)) &&
    b.nodes.all (fun s => s.cfg.ioBoard) && b.ram.wf && b.ram.all (fun c => decide (1 ≤ c.1 ∧ c.1 ≤ 0x200000)) &&
    b.check.wf && b.check.all (fun c => decide (1 ≤ c.1 ∧ c.1 ≤ 0x100000)) &&
    b.eprom.all (fun c => decide (0xF80000 ≤ c.1 ∧ c.1 ≤ 0xFFFFFF))

end Sys2Proof.Machine
end

