-- ==== Sys2Proof/Machine/Backplane.lean ====
section
/-! DEFINITION. The system (00_scope.md R3, 61_system_platform.md R540, R547, R555): the array, its System Control Boards
and the host links between them, with every move that a node, a link, a board or a board's 80286 can make. -/

namespace Sys2Proof.Machine

open Sys2Proof

/-- The array, its System Control Boards and the links between them (`HOST_WIRING`, R8). -/
structure System where
  array : Cube
  boards : List Board
  wiring : List HostLink
  deriving DecidableEq, Repr

/-- A node of the system. -/
inductive NodePlace where
  /-- the array node at a place of the cube -/
  | array (x : Nat)
  /-- local node `k` of board number `j` -/
  | onBoard (j : Nat) (k : Fin 16)
  deriving DecidableEq, Repr

/-- Why a move of the system is refused. Safe. -/
inductive SystemRefusal where
  /-- a node's step is refused -/
  | node (p : NodePlace) (r : Refusal)
  /-- the source does not say what an access of the 80286 to this memory or I/O address does -/
  | unstated (a : Nat)
  deriving DecidableEq, Repr

/-- One move of the system. -/
inductive SystemMove where
  /-- a move of the array -/
  | array (m : CubeMove)
  /-- the next step of local node `k` of board `j` -/
  | localNode (j : Nat) (k : Fin 16)
  /-- a halfword crosses dimension `d` from local node `k` of board `j` (R546) -/
  | localDeliver (j : Nat) (k : Fin 16) (d : Fin 3) (bad : Bool)
  /-- a halfword reaches channel `c` of local node `k` of board `j` from port 63 of its array node (R547) -/
  | toHost (j : Nat) (k : Fin 16) (c : Fin 11) (bad : Bool)
  /-- a halfword reaches port 31 of the array node from channel `c` of local node `k` of board `j` (R547) -/
  | toArray (j : Nat) (k : Fin 16) (c : Fin 11) (bad : Bool)
  /-- something happens on board `j` -/
  | event (j : Nat) (e : BoardEvent)
  /-- board `j` is told that an array board signals an error (R585) -/
  | arrayError (j : Nat)
  /-- the 80286 of board `j` writes an I/O address -/
  | ioWrite (j a : Nat) (v : Half)
  /-- the 80286 of board `j` reads or writes a byte at an I/O address, by which a serial channel may change (R564) -/
  | ioReadByte (j a : Nat)
  | ioWriteByte (j a : Nat) (v : Byte)
  /-- the 80286 of board `j` reads or writes `n` bytes of memory -/
  | memRead (j n a : Nat)
  | memWrite (j n a v : Nat)
  deriving DecidableEq, Repr

/-- What a move of the system ends in. -/
abbrev SystemOutcome := Host.Outcome System (NodePlace × Fault) SystemRefusal

/-! ## Host links -/

/-- A board in one of the slots is joined to the host channel of the node at place `x` of `count` nodes in the slots from
`base` up. -/
def hostServed (wiring : List HostLink) (slots : List (Fin 8)) (base count x : Nat) : Bool :=
  wiring.any fun l => placeOf base count l.array == some x && slots.contains l.slot

/-- Channel `c` of local node `k` of a board in slot `slot` is joined to a node that is there. -/
def hostJoined (wiring : List HostLink) (base count : Nat) (slot : Fin 8) (k : Fin 16) (c : Fin 11) : Bool :=
  wiring.any fun l => l.slot == slot && l.node == k && l.channel == c && (placeOf base count l.array).isSome

/-- The place of the array node that channel `c` of local node `k` of a board in slot `slot` is joined to, where that
node is there. -/
def System.arrayNode (y : System) (slot : Fin 8) (k : Fin 16) (c : Fin 11) : Option Nat :=
  (y.wiring.find? fun l => l.slot == slot && l.node == k && l.channel == c).bind fun l => y.array.place l.array

/-- A board of the system is joined to the host channel of the array node at place `x`. -/
def System.served (y : System) (x : Nat) : Bool :=
  hostServed y.wiring (y.boards.map Board.slot) y.array.base y.array.nodes.length x

/-- Each node's own part of the host wiring and of the local cubes says what the system's does: a channel with no node at
its far end is wired to nothing (R457, log 23). -/
def System.wired (y : System) : Bool :=
  ((List.range y.array.nodes.length).all fun x =>
    y.array.nodes[x]?.all fun s =>
      (s.cfg.wiring.get 10 == .linked) == y.served x && s.cfg.inWired.get 10 == y.served x) &&
    y.boards.all fun b =>
      (List.finRange 16).all fun k => (List.finRange 11).all fun c =>
        let s := b.nodes.get k
        let joined := (b.dimension c).isSome || (y.arrayNode b.slot k c).isSome
        (s.cfg.wiring.get c == .linked) == joined && s.cfg.inWired.get c == joined

/-- The systems there are (R3, R555): a cube, one to eight boards in slots of their own, and host links of which no two
share an end. -/
def System.wf (y : System) : Bool :=
  y.array.wf && decide (1 ≤ y.boards.length) && decide (y.boards.length ≤ 8) &&
    decide (y.boards.map Board.slot).Nodup && y.boards.all Board.wf &&
    decide (y.wiring.map fun l => (l.slot, l.node, l.channel)).Nodup && decide (y.wiring.map HostLink.array).Nodup &&
    y.wired

/-- Board number `j` replaced. -/
def System.setBoard (y : System) (j : Nat) (b : Board) : System := { y with boards := y.boards.set j b }

/-- A halfword goes from port 63 of an array node to channel `c` of local node `k` of board number `j` (R547). -/
def System.toHost (y : System) (j : Nat) (k : Fin 16) (c : Fin 11) (bad : Bool) : System :=
  match y.boards[j]? with
  | none => y
  | some b =>
    match y.arrayNode b.slot k c with
    | none => y
    | some x =>
      match y.array.nodes[x]? with
      | none => y
      | some s =>
        match (s.outPort 10).link with
        | [] => y
        | h :: _ =>
          { y with array := y.array.setNode x (s.takeLink 10), boards := y.boards.set j (b.receive k c h bad) }

/-- A halfword goes from channel `c` of local node `k` of board number `j` to port 31 of an array node (R547). -/
def System.toArray (y : System) (j : Nat) (k : Fin 16) (c : Fin 11) (bad : Bool) : System :=
  match y.boards[j]? with
  | none => y
  | some b =>
    match y.arrayNode b.slot k c, ((b.nodes.get k).outPort c).link with
    | some x, h :: _ =>
      match y.array.nodes[x]? with
      | some s =>
        { y with
            array := y.array.setNode x (s.receive 10 h bad)
            boards := y.boards.set j (b.setNode k ((b.nodes.get k).takeLink c)) }
      | none => y
    | _, _ => y

/-! ## Reset lines -/

/-- The array board in slot `k` is reset (R567 (1)): what the boards' local nodes have sent toward its nodes is lost as
well (D62). -/
def System.resetArray (y : System) (k : Fin 16) : System :=
  { y with
      array := y.array.resetBoard k
      boards := y.boards.map fun b =>
        { b with
            nodes := Vector.ofFn fun i => (b.nodes.get i).dropLinks fun c =>
              match y.arrayNode b.slot i c with
              | some x => y.array.slot x == k.val
              | none => false } }

/-- The array boards whose bit is set are reset (R567 (1)). -/
def System.resetArrays (y : System) (v : Half) : System :=
  (List.finRange 16).foldl (fun y k => if v.getLsbD k.val then y.resetArray k else y) y

/-- What array nodes have sent toward the local nodes of the board in slot `slot` is lost (D62). -/
def System.dropToward (y : System) (slot : Fin 8) : System :=
  { y with
      array :=
        { y.array with
            nodes := y.array.nodes.mapIdx fun x s => s.dropLinks fun d =>
              d == 10 && y.wiring.any fun l => l.slot == slot && y.array.place l.array == some x } }

/-- The 80286 of board number `j` writes an I/O address (R567); none where the source does not say what happens. A
write of Array Reset resets array boards, one of Control with bit 14 at zero the board's own nodes. -/
def System.ioWrite (y : System) (j a : Nat) (v : Half) : Option System :=
  match y.boards[j]? with
  | none => some y
  | some b =>
    (b.ioWrite a v).map fun t =>
      let z := y.setBoard j t
      if a = 0x10 then z.resetArrays v else if a = 0x12 && !v.getLsbD 14 then z.dropToward b.slot else z

/-! ## Error lines -/

/-- The error lines of the nodes of the array board in slot `k`, none where the slot holds no board. -/
def System.errorFlags (y : System) (k : Fin 16) : List Bool :=
  ((List.range y.array.nodes.length).filter fun x => y.array.slot x == k.val).filterMap fun x =>
    y.array.nodes[x]?.map State.signalsError

/-- The array board in slot `k` signals an error: how the Error pins of its nodes combine is not in the source (R55,
R585). Nor is the level of a slot that holds no board, which signals nothing here (log 35, DESIGN CHOICE). -/
def System.errorLine (y : System) (k : Fin 16) : Bool :=
  !(y.errorFlags k).isEmpty && Config.errorLine (y.errorFlags k)

/-- The sixteen levels of the main array interrupt controller: bit `k` is the error line of array board `k` (R585). -/
def System.errorLevels (y : System) : Half := BitVec.ofFnLE fun k => y.errorLine k

/-- What the 80286 of board number `j` gets by a 16-bit read of an I/O address, which changes nothing: the error lines of the
array boards are at its main array controllers (R585). -/
def System.ioRead (y : System) (j a : Nat) : Option Half := y.boards[j]?.bind fun b => b.ioRead y.errorLevels a

/-! ## Moves -/

/-- An outcome of a node as one of the system, `put` being where its next state goes. -/
def nodeOutcome (p : NodePlace) (put : State → System) : Host.Outcome State Fault Refusal → SystemOutcome
  | .next s => .next (put s)
  | .fault f => .fault (p, f)
  | .refused r => .refused (.node p r)

/-- The board that `act` makes of board number `j`; nothing where there is no such board. -/
def System.onBoard (y : System) (j : Nat) (act : Board → Board) : System := { y with boards := y.boards.modify j act }

/-- The system where something on board number `j` reaches its local nodes' memory, `put` being where what it ends in goes; a
fault is the local node's. -/
def System.reach {α : Type} (y : System) (j : Nat) (act : Board → Reaches α) (put : α → SystemOutcome) : SystemOutcome :=
  match y.boards[j]? with
  | some b =>
    match act b with
    | .ok v => put v
    | .error (k, f) => .fault (.onBoard j k, f)
  | none => .next y

/-- The system with the board that an access of its 80286 at `a` makes of board number `j`; refused where the source does not
say what the access does. -/
def System.access (y : System) (j a : Nat) : Option Board → SystemOutcome
  | some t => .next (y.setBoard j t)
  | none => .refused (.unstated a)

/-- A step of the array node at place `x`. A halfword leaves or reaches it by a move of the system only, over a link of the
array or a host link: the node's own schedule moves none, so that an unwired input never receives (R457). -/
def System.stepArray (y : System) (x : Nat) : SystemOutcome :=
  match y.array.nodes[x]? with
  | some s =>
    nodeOutcome (.array x) (fun t => { y with array := y.array.setNode x t }) (step (s.among fun _ => true))
  | none => .next y

/-- A step of local node `k` of board number `j`, unless the node is held in reset; here too a halfword crosses a link by a
move of the system only. A read of the host that fell within an earlier step and was not taken is done with (log 10). -/
def System.stepLocal (y : System) (j : Nat) (k : Fin 16) : SystemOutcome :=
  match y.boards[j]? with
  | some b =>
    if b.localsRun then
      nodeOutcome (.onBoard j k) (fun t => y.setBoard j (b.setNode k t))
        (step { (b.nodes.get k).among fun _ => true with hostReads := [] })
    else .next y
  | none => .next y

/-- One move of the system. A node or a board that is not there makes no move. -/
def System.move (m : SystemMove) (y : System) : SystemOutcome :=
  match m with
  | .array (.node x) => y.stepArray x
  | .array (.deliver x d bad) => .next { y with array := y.array.deliver x d bad }
  | .array (.resetBoard k) => .next (y.resetArray k)
  | .localNode j k => y.stepLocal j k
  | .localDeliver j k d bad => .next (y.onBoard j fun b => b.deliver k d bad)
  | .toHost j k c bad => .next (y.toHost j k c bad)
  | .toArray j k c bad => .next (y.toArray j k c bad)
  | .event j e => y.reach j (fun b => b.event e) fun t => .next (y.setBoard j t)
  | .arrayError j => .next (if y.errorLevels != 0 then y.onBoard j fun b => b.raise .mainArrayError else y)
  | .ioWrite j a v =>
    match y.ioWrite j a v with
    | some z => .next z
    | none => .refused (.unstated a)
  | .ioReadByte j a => .next (y.onBoard j fun b => (b.ioReadByte a).1)
  | .ioWriteByte j a v => y.reach j (fun b => .ok (b.ioWriteByte a v)) (y.access j a)
  | .memRead j n a => y.reach j (fun b => b.memRead n a) fun r => .next (y.setBoard j r.1)
  | .memWrite j n a v => y.reach j (fun b => b.memWrite n a v) (y.access j a)

/-- A system right after reset: an array in the slots from `base` up and a board, with its system ID and PROM, in each of
the given slots (R3, R555, R621). -/
def System.reset (order base : Nat) (boards : List (Fin 8 × BitVec 13 × BitVec 8 × List Host.Cell)) (cfg : Params) :
    System where
  array :=
    Cube.reset order base (portWiring order) (hostServed hostWiring (boards.map Prod.fst) base (2 ^ order)) cfg
  boards :=
    boards.map fun b =>
      Board.reset b.1 b.2.1 b.2.2.1 b.2.2.2 defaultLocalChannels (hostJoined hostWiring base (2 ^ order) b.1) cfg
  wiring := hostWiring

end Sys2Proof.Machine
end

