-- ==== Sys2Proof/Tests/Slice0.lean ====
section
/-! SUPPORT. Tests of the model against the spec's own examples (95_test_vectors.md and the Example line of each rule;
the rule or vector stands beside each row), and a witness for the hypotheses of each statement. -/

namespace Sys2Proof.Tests

-- one theorem at a time: the stacks of many threads do not fit beside each other
set_option Elab.async false

open Sys2Proof Sys2Proof.Machine

/-! ## Well-formed terms -/

theorem test_wellFormed_accepts : (Instr.addw (.imm 0xFFFFFFFF) (.autoInc 3)).wellFormed = true := by decide
theorem test_wellFormed_literal_destination : (Instr.addw (.reg 1) (.lit 5)).wellFormed = false := by decide
theorem test_wellFormed_immediate_destination : (Instr.movw (.reg 1) (.imm 5)).wellFormed = false := by decide
theorem test_wellFormed_wide_immediate : (Instr.movb (.imm 0x100) (.reg 1)).wellFormed = false := by decide
theorem test_wellFormed_immediate_address : (Instr.jmp (.imm 5)).wellFormed = false := by decide
theorem test_wellFormed_repeat_count : (Instr.rep (.ind 1)).wellFormed = false := by decide
theorem test_wellFormed_illegal_specifier : (Instr.retp (.illegal 0xE0)).wellFormed = false := by decide
theorem test_wellFormed_missing_reference : (Instr.bv (.missing 0)).wellFormed = false := by decide
theorem test_wellFormed_compare_literal : (Instr.cmpw (.reg 1) (.lit 5)).wellFormed = true := by decide

/-! ## Decoding -/

/-- The bytes decode to the instruction, with nothing left. -/
def decodesTo (bs : List Byte) (i : Instr) : Bool :=
  match decode Params.default bs with
  | .ok (j, []) => j == i
  | _ => false

/-- Column 0 of the opcode map (R120), with references by the mode table (R113). -/
theorem test_decode_column_0 :
    ([([0x00, 0xC1, 0xC2], .movb (.reg 1) (.reg 2)),
      ([0x10, 0x83, 0xFC, 0x56], .negb (.offB 3 0xFC) (.autoSkip 6)),
      ([0x20, 0xF4, 0x08, 0xC2], .sbrb (.spB 8) (.reg 2)),
      ([0x30, 0x83, 0xFC, 0x77], .cmpb (.offB 3 0xFC) (.autoIncInd 7)),
      ([0x40, 0xF4, 0x08, 0x64], .addb (.spB 8) (.autoInc 4)),
      ([0x50, 0x83, 0xFC, 0xF0, 0x10], .adcb (.offB 3 0xFC) (.pcB 0x10)),
      ([0x60, 0x6F, 0xD5], .subb (.autoInc 15) (.autoDec 5)),
      ([0x70, 0x3F, 0xFA, 0x78, 0x56, 0x34, 0x12], .sbbb (.lit 63) (.dirW 0x12345678)),
      ([0x80, 0xFC, 0xD5], .mulb .stk (.autoDec 5)),
      ([0x90, 0x6F, 0xFA, 0x78, 0x56, 0x34, 0x12], .dvrb (.autoInc 15) (.dirW 0x12345678)),
      ([0xA0, 0xC1, 0xD5], .remb (.reg 1) (.autoDec 5)),
      ([0xB0, 0xC1, 0xF0, 0x10], .divb (.reg 1) (.pcB 0x10)),
      ([0xC0, 0xC1, 0xC2], .bitb (.reg 1) (.reg 2))] : List (List Byte × Instr)).all (fun p => decodesTo p.1 p.2) = true := by decide

/-- Column 1 of the opcode map (R120), with references by the mode table (R113). -/
theorem test_decode_column_1 :
    ([([0x01, 0x3F, 0xC2], .sftb (.lit 63) (.reg 2)),
      ([0x11, 0xFC, 0x77], .sfab .stk (.autoIncInd 7)),
      ([0x21, 0xC1, 0x64], .rotb (.reg 1) (.autoInc 4)),
      ([0x31, 0xFC, 0xF0, 0x10], .ffob .stk (.pcB 0x10)),
      ([0x41, 0xC1, 0xD5], .andb (.reg 1) (.autoDec 5)),
      ([0x51, 0xFC, 0xFA, 0x78, 0x56, 0x34, 0x12], .orb .stk (.dirW 0x12345678)),
      ([0x61, 0xF4, 0x08, 0xD5], .xorb (.spB 8) (.autoDec 5)),
      ([0x71, 0x42, 0xFA, 0x78, 0x56, 0x34, 0x12], .notb (.ind 2) (.dirW 0x12345678)),
      ([0x81, 0xF9, 0x00, 0x40, 0x56], .adcd (.dirH 0x4000) (.autoSkip 6)),
      ([0x91, 0xF4, 0x08, 0xFA, 0x78, 0x56, 0x34, 0x12], .sbbd (.spB 8) (.dirW 0x12345678))] : List (List Byte × Instr)).all (fun p => decodesTo p.1 p.2) = true := by decide

/-- Column 2 of the opcode map (R120), with references by the mode table (R113). -/
theorem test_decode_column_2 :
    ([([0x02, 0x42, 0xC2], .movh (.ind 2) (.reg 2)),
      ([0x12, 0xF9, 0x00, 0x40, 0x77], .negh (.dirH 0x4000) (.autoIncInd 7)),
      ([0x22, 0x3F, 0x64], .sbrh (.lit 63) (.autoInc 4)),
      ([0x32, 0xF9, 0x00, 0x40, 0xF0, 0x10], .cmph (.dirH 0x4000) (.pcB 0x10)),
      ([0x42, 0x3F, 0xD5], .addh (.lit 63) (.autoDec 5)),
      ([0x52, 0xF9, 0x00, 0x40, 0xFA, 0x78, 0x56, 0x34, 0x12], .adch (.dirH 0x4000) (.dirW 0x12345678)),
      ([0x62, 0xC1, 0x56], .subh (.reg 1) (.autoSkip 6)),
      ([0x72, 0x83, 0xFC, 0xFA, 0x78, 0x56, 0x34, 0x12], .sbbh (.offB 3 0xFC) (.dirW 0x12345678)),
      ([0x82, 0x6F, 0x56], .mulh (.autoInc 15) (.autoSkip 6)),
      ([0x92, 0xC1, 0xFA, 0x78, 0x56, 0x34, 0x12], .dvrh (.reg 1) (.dirW 0x12345678)),
      ([0xA2, 0x3F, 0xD5], .remh (.lit 63) (.autoDec 5)),
      ([0xB2, 0x3F, 0xF0, 0x10], .divh (.lit 63) (.pcB 0x10)),
      ([0xC2, 0x3F, 0x64], .bith (.lit 63) (.autoInc 4))] : List (List Byte × Instr)).all (fun p => decodesTo p.1 p.2) = true := by decide

/-- Column 3 of the opcode map (R120), with references by the mode table (R113). -/
theorem test_decode_column_3 :
    ([([0x03, 0x83, 0xFC, 0x64], .sfth (.offB 3 0xFC) (.autoInc 4)),
      ([0x13, 0x6F, 0x77], .sfah (.autoInc 15) (.autoIncInd 7)),
      ([0x23, 0x42, 0x64], .roth (.ind 2) (.autoInc 4)),
      ([0x33, 0x6F, 0xF0, 0x10], .ffoh (.autoInc 15) (.pcB 0x10)),
      ([0x43, 0x42, 0xD5], .andh (.ind 2) (.autoDec 5)),
      ([0x53, 0x6F, 0xFA, 0x78, 0x56, 0x34, 0x12], .orh (.autoInc 15) (.dirW 0x12345678)),
      ([0x63, 0x3F, 0x56], .xorh (.lit 63) (.autoSkip 6)),
      ([0x73, 0xFC, 0xC2], .noth .stk (.reg 2))] : List (List Byte × Instr)).all (fun p => decodesTo p.1 p.2) = true := by decide

/-- Column 4 of the opcode map (R120), with references by the mode table (R113). -/
theorem test_decode_column_4 :
    ([([0x04, 0xFC, 0x64], .movw .stk (.autoInc 4)),
      ([0x14, 0xF4, 0x08, 0xF0, 0x10], .negw (.spB 8) (.pcB 0x10)),
      ([0x24, 0x83, 0xFC, 0xD5], .sbrw (.offB 3 0xFC) (.autoDec 5)),
      ([0x34, 0xF4, 0x08, 0xFA, 0x78, 0x56, 0x34, 0x12], .cmpw (.spB 8) (.dirW 0x12345678)),
      ([0x44, 0x83, 0xFC, 0x56], .addw (.offB 3 0xFC) (.autoSkip 6)),
      ([0x54, 0xF4, 0x08, 0xC2], .adcw (.spB 8) (.reg 2)),
      ([0x64, 0x42, 0x56], .subw (.ind 2) (.autoSkip 6)),
      ([0x74, 0xF9, 0x00, 0x40, 0xC2], .sbbw (.dirH 0x4000) (.reg 2)),
      ([0x84, 0xF4, 0x08, 0x56], .mulw (.spB 8) (.autoSkip 6)),
      ([0x94, 0x3F, 0xC2], .dvrw (.lit 63) (.reg 2)),
      ([0xA4, 0x42, 0x56], .remw (.ind 2) (.autoSkip 6)),
      ([0xB4, 0x42, 0xF0, 0x10], .divw (.ind 2) (.pcB 0x10)),
      ([0xC4, 0x42, 0x64], .bitw (.ind 2) (.autoInc 4))] : List (List Byte × Instr)).all (fun p => decodesTo p.1 p.2) = true := by decide

/-- Column 5 of the opcode map (R120), with references by the mode table (R113). -/
theorem test_decode_column_5 :
    ([([0x05, 0xF9, 0x00, 0x40, 0x64], .sftw (.dirH 0x4000) (.autoInc 4)),
      ([0x15, 0xC1, 0xF0, 0x10], .sfaw (.reg 1) (.pcB 0x10)),
      ([0x25, 0xFC, 0xD5], .rotw .stk (.autoDec 5)),
      ([0x35, 0xC1, 0xFA, 0x78, 0x56, 0x34, 0x12], .ffow (.reg 1) (.dirW 0x12345678)),
      ([0x45, 0xFC, 0x56], .andw .stk (.autoSkip 6)),
      ([0x55, 0xC1, 0xC2], .orw (.reg 1) (.reg 2)),
      ([0x65, 0x83, 0xFC, 0x77], .xorw (.offB 3 0xFC) (.autoIncInd 7)),
      ([0x75, 0x6F, 0xC2], .notw (.autoInc 15) (.reg 2)),
      ([0x85, 0xC1, 0x77], .ldpr (.reg 1) (.autoIncInd 7)),
      ([0x95, 0x42, 0xC2], .stpr (.ind 2) (.reg 2)),
      ([0xA5, 0x83, 0xFC, 0x56], .lcnt (.offB 3 0xFC) (.autoSkip 6)),
      ([0xB5, 0x83, 0xFC, 0xFA, 0x78, 0x56, 0x34, 0x12], .lptr (.offB 3 0xFC) (.dirW 0x12345678)),
      ([0xC5, 0x83, 0xFC, 0x64], .bcnt (.offB 3 0xFC) (.autoInc 4)),
      ([0xD5, 0xF4, 0x08, 0x56], .bptr (.spB 8) (.autoSkip 6)),
      ([0xE5, 0x83, 0xFC, 0x77], .mova (.offB 3 0xFC) (.autoIncInd 7))] : List (List Byte × Instr)).all (fun p => decodesTo p.1 p.2) = true := by decide

/-- Column 8 of the opcode map (R120), with references by the mode table (R113). -/
theorem test_decode_column_8 :
    ([([0x08, 0x6F, 0xD5], .movr (.autoInc 15) (.autoDec 5)),
      ([0x18, 0x3F, 0xF0, 0x10], .negr (.lit 63) (.pcB 0x10)),
      ([0x28, 0xF9, 0x00, 0x40, 0xD5], .sbrr (.dirH 0x4000) (.autoDec 5)),
      ([0x38, 0x3F, 0xFA, 0x78, 0x56, 0x34, 0x12], .cmpr (.lit 63) (.dirW 0x12345678)),
      ([0x48, 0xF9, 0x00, 0x40, 0x56], .addr (.dirH 0x4000) (.autoSkip 6)),
      ([0x58, 0x3F, 0xC2], .sqtr (.lit 63) (.reg 2)),
      ([0x68, 0xFC, 0x77], .subr .stk (.autoIncInd 7)),
      ([0x78, 0xF4, 0x08, 0x64], .sgnr (.spB 8) (.autoInc 4)),
      ([0x88, 0x3F, 0x77], .mulr (.lit 63) (.autoIncInd 7)),
      ([0x98, 0x83, 0xFC, 0xC2], .dvrr (.offB 3 0xFC) (.reg 2)),
      ([0xA8, 0xFC, 0x56], .remr .stk (.autoSkip 6)),
      ([0xB8, 0xFC, 0xFA, 0x78, 0x56, 0x34, 0x12], .divr .stk (.dirW 0x12345678))] : List (List Byte × Instr)).all (fun p => decodesTo p.1 p.2) = true := by decide

/-- Column 9 of the opcode map (R120), with references by the mode table (R113). -/
theorem test_decode_column_9 :
    ([([0x09, 0xF4, 0x08, 0xD5], .cvbr (.spB 8) (.autoDec 5)),
      ([0x19, 0x42, 0xFA, 0x78, 0x56, 0x34, 0x12], .cvhr (.ind 2) (.dirW 0x12345678)),
      ([0x29, 0x6F, 0x56], .cvwr (.autoInc 15) (.autoSkip 6)),
      ([0x39, 0x42, 0xC2], .cvlr (.ind 2) (.reg 2)),
      ([0x49, 0x6F, 0x77], .cvbl (.autoInc 15) (.autoIncInd 7)),
      ([0x59, 0x42, 0x64], .cvhl (.ind 2) (.autoInc 4)),
      ([0x69, 0xF9, 0x00, 0x40, 0x77], .cvwl (.dirH 0x4000) (.autoIncInd 7)),
      ([0x79, 0xC1, 0x64], .cvrl (.reg 1) (.autoInc 4)),
      ([0x89, 0x42, 0x77], .cvbw (.ind 2) (.autoIncInd 7)),
      ([0x99, 0xFC, 0x64], .cvhw .stk (.autoInc 4)),
      ([0xA9, 0xF9, 0x00, 0x40, 0x77], .cvwb (.dirH 0x4000) (.autoIncInd 7)),
      ([0xB9, 0xF9, 0x00, 0x40, 0xFA, 0x78, 0x56, 0x34, 0x12], .cvwh (.dirH 0x4000) (.dirW 0x12345678)),
      ([0xC9, 0xFC, 0xD5], .cvrw .stk (.autoDec 5)),
      ([0xD9, 0xC1, 0x56], .cvlw (.reg 1) (.autoSkip 6))] : List (List Byte × Instr)).all (fun p => decodesTo p.1 p.2) = true := by decide

/-- Column A of the opcode map (R120), with references by the mode table (R113). -/
theorem test_decode_column_A :
    ([([0x0A, 0xC1, 0xD5], .movl (.reg 1) (.autoDec 5)),
      ([0x1A, 0x83, 0xFC, 0xFA, 0x78, 0x56, 0x34, 0x12], .negl (.offB 3 0xFC) (.dirW 0x12345678)),
      ([0x2A, 0xF4, 0x08, 0x56], .sbrl (.spB 8) (.autoSkip 6)),
      ([0x3A, 0x83, 0xFC, 0xC2], .cmpl (.offB 3 0xFC) (.reg 2)),
      ([0x4A, 0xF4, 0x08, 0x77], .addl (.spB 8) (.autoIncInd 7)),
      ([0x5A, 0x83, 0xFC, 0x64], .sqtl (.offB 3 0xFC) (.autoInc 4)),
      ([0x6A, 0x6F, 0xF0, 0x10], .subl (.autoInc 15) (.pcB 0x10)),
      ([0x7A, 0x3F, 0x64], .sgnl (.lit 63) (.autoInc 4)),
      ([0x8A, 0x83, 0xFC, 0xF0, 0x10], .mull (.offB 3 0xFC) (.pcB 0x10)),
      ([0x9A, 0xF9, 0x00, 0x40, 0x64], .dvrl (.dirH 0x4000) (.autoInc 4)),
      ([0xAA, 0x6F, 0x77], .reml (.autoInc 15) (.autoIncInd 7)),
      ([0xBA, 0x6F, 0xC2], .divl (.autoInc 15) (.reg 2))] : List (List Byte × Instr)).all (fun p => decodesTo p.1 p.2) = true := by decide

/-- Column B of the opcode map (R120), with references by the mode table (R113). -/
theorem test_decode_column_B :
    ([([0x0B], .nop),
      ([0x1B], .clc),
      ([0x2B], .stc),
      ([0x3B], .cmc),
      ([0x4B], .eron),
      ([0x5B], .erof),
      ([0x6B], .bkpt),
      ([0x7B], .rset),
      ([0x8B], .ei),
      ([0x9B], .di),
      ([0xCB], .reti),
      ([0xDB], .wait),
      ([0xEB], .ret)] : List (List Byte × Instr)).all (fun p => decodesTo p.1 p.2) = true := by decide

/-- Column E of the opcode map (R120), with references by the mode table (R113). -/
theorem test_decode_column_E :
    ([([0x1E, 0xCF], .rep (.reg 15)),
      ([0x2E, 0xCF], .repz (.reg 15)),
      ([0x3E, 0xCF], .repnz (.reg 15)),
      ([0x4E, 0x3F], .trap (.lit 63))] : List (List Byte × Instr)).all (fun p => decodesTo p.1 p.2) = true := by decide

/-- Column F of the opcode map (R120), with references by the mode table (R113). -/
theorem test_decode_column_F :
    ([([0x0F, 0x42], .bg (.ind 2)),
      ([0x1F, 0x6F], .ble (.autoInc 15)),
      ([0x2F, 0x42], .bgu (.ind 2)),
      ([0x3F, 0x6F], .bleu (.autoInc 15)),
      ([0x4F, 0x42], .bge (.ind 2)),
      ([0x5F, 0xF9, 0x00, 0x40], .bl (.dirH 0x4000)),
      ([0x6F, 0xC1], .bgeu (.reg 1)),
      ([0x7F, 0x83, 0xFC], .blu (.offB 3 0xFC)),
      ([0x8F, 0xF9, 0x00, 0x40], .bne (.dirH 0x4000)),
      ([0x9F, 0xF4, 0x08], .be (.spB 8)),
      ([0xAF, 0xF4, 0x08], .bnv (.spB 8)),
      ([0xBF, 0xF4, 0x08], .bv (.spB 8)),
      ([0xCF, 0x6F], .call (.autoInc 15)),
      ([0xDF, 0x42], .jmp (.ind 2)),
      ([0xEF, 0xF9, 0x00, 0x40], .retp (.dirH 0x4000))] : List (List Byte × Instr)).all (fun p => decodesTo p.1 p.2) = true := by decide

/-- The immediates have the operand's length (R113), and the addressing modes their offsets (R113). -/
theorem test_decode_modes :
    ([([0x00, 0xFD, 0x80, 0xC3], .movb (.imm 0x80) (.reg 3)),
      ([0x02, 0xFD, 0x34, 0x12, 0xC1], .movh (.imm 0x1234) (.reg 1)),
      ([0x04, 0xFD, 0x78, 0x56, 0x34, 0x12, 0xC1], .movw (.imm 0x12345678) (.reg 1)),
      ([0x0A, 0xFD, 1, 2, 3, 4, 5, 6, 7, 8, 0xC1], .movl (.imm 0x0807060504030201) (.reg 1)),
      ([0x04, 0x91, 0x00, 0x10, 0xC2], .movw (.offH 1 0x1000) (.reg 2)),
      ([0x04, 0xA1, 0xF8, 0xFF, 0xFF, 0xFF, 0xC2], .movw (.offW 1 0xFFFFFFF8) (.reg 2)),
      ([0x04, 0xB1, 4, 0, 0, 0, 0xC2], .movw (.offInd 1 4) (.reg 2)),
      ([0x04, 0xF1, 0x00, 0x30, 0xF2, 1, 0, 0, 0], .movw (.pcH 0x3000) (.pcW 1)),
      ([0x04, 0xF3, 0x00, 0x30, 0, 0, 0xF5, 1, 0], .movw (.pcInd 0x3000) (.spH 1)),
      ([0x04, 0xF6, 8, 0, 0, 0, 0xF7, 8, 0, 0, 0], .movw (.spW 8) (.spInd 8)),
      ([0x04, 0xF8, 0x80, 0xFB, 4, 0x40, 0, 0], .movw (.dirB 0x80) (.dirInd 0x4004)),
      ([0x04, 0xC1, 0xE0], .movw (.reg 1) (.illegal 0xE0)),
      ([0x4E, 0xFD, 0x28], .trap (.imm 0x28)),
      ([0xC5, 0x10, 0xFD, 1, 0, 0, 0x80], .bcnt (.lit 16) (.imm 0x80000001))] :
      List (List Byte × Instr)).all (fun p => decodesTo p.1 p.2) = true := by decide

/-- Reserved opcodes are refused by name (R122), and so is an empty stream. -/
theorem test_decode_reserved :
    decode Params.default [0x06] = .error (.reservedOpcode 0x06) ∧
      decode Params.default [0xFF, 0xC1, 0xC2] = .error (.reservedOpcode 0xFF) ∧
      decode Params.default [] = .error .empty := by decide

/-- The other order of DIV, DVR and REM (R121), and the other order of stack and immediate mode (R113). -/
theorem test_decode_parameters :
    decode { Params.default with divRows := .definitions } [0x94, 0xC1, 0xC2] = .ok (.remw (.reg 1) (.reg 2), []) ∧
      decode { Params.default with stkImm := .headings } [0x04, 0xFD, 0xC2] = .ok (.movw .stk (.reg 2), []) := by decide

/-! ## One step -/

/-- The start of a test: pc 0x1000, SP 0x8000, the registers and PS given, all else as after reset. -/
def start (regs : List (Fin 16 × Word)) (ps : Word) : State :=
  regs.foldl (fun s x => s.setReg x.1 x.2) { State.reset with ps := PsReg.ofWord Params.default ps }

/-- Numbers of `n` bytes placed in memory: address, `n`, number. -/
def filled (s : State) (cells : List (Nat × Nat × Nat)) : State :=
  { s with mem := cells.foldl (fun m x => m.writeN x.1 x.2.1 x.2.2) s.mem }

/-- The step answers a next state of which the check holds. -/
def after (s : State) (check : State → Bool) : Bool :=
  match step s with
  | .next t => check t
  | _ => false

/-- The registers named, PS, pc, SP and the numbers in memory are as given. -/
def holds (regs : List (Fin 16 × Word)) (ps pc sp : Word) (cells : List (Nat × Nat × Nat)) (t : State) : Bool :=
  regs.all (fun x => t.reg x.1 == x.2) && t.ps.toWord t.cfg == ps && t.pc == pc && t.sp == sp &&
    cells.all (fun x => t.mem.readN x.1 x.2.1 == x.2.2)

/-- A row: the bytes at pc, registers and PS before, registers and PS after; pc goes past the bytes, SP stays. -/
abbrev Row := List Byte × List (Fin 16 × Word) × Word × List (Fin 16 × Word) × Word

/-- The row's step does what it says. -/
def Row.ok (r : Row) : Bool :=
  after ((start r.2.1 r.2.2.1).placed r.1)
    (holds r.2.2.2.1 r.2.2.2.2 (0x1000 + BitVec.ofNat 32 r.1.length) 0x8000 [])

theorem test_step_integer_arith_1 :
    ([([0x00, 0xFD, 0x80, 0xC3], [], 0, [(3, 0xFFFFFF80)], 0), /- MOVB, B1.4 -/
      ([0x02, 0xFD, 0x34, 0x12, 0xC1], [(1, 0xFFFFFFFF)], 0, [(1, 0x1234)], 0), /- MOVH, B1.5 -/
      ([0x04, 0x05, 0xC1], [], 0, [(1, 5)], 0), /- MOVW, B1.1 -/
      ([0x04, 0xFD, 0x78, 0x56, 0x34, 0x12, 0xC1], [], 0, [(1, 0x12345678)], 0), /- MOVW, B1.6 -/
      ([0x10, 0x05, 0xC1], [], 0, [(1, 0xFFFFFFFB)], 9), /- NEGB, B2.1 -/
      ([0x12, 0xC2, 0xC2], [(2, 0x10001)], 0, [(2, 0xFFFFFFFF)], 9), /- NEGH, B2.2 -/
      ([0x14, 0xC1, 0xC2], [(1, 0x80000000)], 0, [(1, 0x80000000), (2, 0x80000000)], 3), /- NEGW, B2.3 -/
      ([0x14, 0x00, 0xC2], [(2, 5)], 0, [(2, 0)], 4), /- NEGW, B2.4 -/
      ([0x20, 0x0A, 0xC1], [(1, 3)], 0, [(1, 7)], 0), /- SBRB, B2.20 -/
      ([0x22, 0x00, 0xC1], [(1, 1)], 0, [(1, 0xFFFFFFFF)], 9), /- SBRH, B2.21 -/
      ([0x24, 0xC1, 0xC2], [(1, 0x7FFFFFFF), (2, 0xFFFFFFFF)], 0, [(1, 0x7FFFFFFF), (2, 0x80000000)], 3), /- SBRW, B2.22 -/
      ([0x30, 0x05, 0xC1], [(1, 0x105)], 0, [(1, 0x105)], 4) /- CMPB, B2.23 -/] : List Row).all Row.ok = true := by decide +kernel

theorem test_step_integer_arith_2 :
    ([([0x32, 0xC1, 0xC2], [(1, 0xFFFF), (2, 1)], 0, [(1, 0xFFFF), (2, 1)], 8), /- CMPH, B2.24 -/
      ([0x34, 0xC1, 0x05], [(1, 5)], 0, [(1, 5)], 4), /- CMPW, B1.53 -/
      ([0x34, 0xC1, 0xC2], [(1, 0x80000000), (2, 0x7FFFFFFF)], 0, [(1, 0x80000000), (2, 0x7FFFFFFF)], 8), /- CMPW, B2.26 -/
      ([0x40, 0x01, 0xC1], [(1, 0xFF)], 0, [(1, 0)], 5), /- ADDB, B2.5 -/
      ([0x40, 0x01, 0xC1], [(1, 0x7F)], 0x100000, [(1, 0xFFFFFF80)], 0x100002), /- ADDB, B2.58 -/
      ([0x42, 0xFD, 0xFF, 0x7F, 0xC0], [(0, 1)], 0, [(0, 0xFFFF8000)], 2), /- ADDH, B2.7 -/
      ([0x44, 0xC1, 0xC2], [(1, 0xFFFFFFFF), (2, 2)], 0, [(1, 0xFFFFFFFF), (2, 1)], 1), /- ADDW, B2.8 -/
      ([0x44, 0xC1, 0xC2], [(1, 0x80000000), (2, 0x80000000)], 0, [(1, 0x80000000), (2, 0)], 0xF), /- ADDW, B2.10 -/
      ([0x50, 0xC1, 0xC2], [(1, 0x80), (2, 0x7F)], 1, [(1, 0x80), (2, 0)], 5), /- ADCB, B2.13 -/
      ([0x52, 0xC1, 0xC2], [(1, 0xFFFF)], 1, [(1, 0xFFFF), (2, 0)], 5), /- ADCH, R216 -/
      ([0x54, 0x00, 0xC2], [(2, 0xFFFFFFFF)], 1, [(2, 0)], 5), /- ADCW, B2.11 -/
      ([0x54, 0xC1, 0xC2], [(1, 0x7FFFFFFF), (2, 0)], 1, [(1, 0x7FFFFFFF), (2, 0x80000000)], 2) /- ADCW, B2.12 -/] : List Row).all Row.ok = true := by decide +kernel

theorem test_step_integer_arith_3 :
    ([([0x60, 0x01, 0xC2], [(2, 0)], 0, [(2, 0xFFFFFFFF)], 9), /- SUBB, B2.15 -/
      ([0x62, 0x01, 0xC0], [(0, 0xFFFF8000)], 0, [(0, 0x7FFF)], 0xA), /- SUBH, B2.14 -/
      ([0x64, 0xC1, 0xC2], [(1, 5), (2, 5)], 0, [(1, 5), (2, 0)], 4), /- SUBW, B2.16 -/
      ([0x64, 0xC1, 0xC2], [(1, 1), (2, 0x80000000)], 0, [(1, 1), (2, 0x7FFFFFFF)], 0xA), /- SUBW, B2.17 -/
      ([0x70, 0x00, 0xC1], [(1, 0)], 1, [(1, 0xFFFFFFFF)], 9), /- SBBB, R221 -/
      ([0x72, 0x01, 0xC1], [(1, 5)], 1, [(1, 3)], 0), /- SBBH, R222 -/
      ([0x74, 0x00, 0xC2], [(2, 0)], 1, [(2, 0xFFFFFFFF)], 9), /- SBBW, B2.18 -/
      ([0x74, 0xC1, 0xC2], [(1, 2), (2, 5)], 1, [(1, 2), (2, 2)], 0), /- SBBW, B2.19 -/
      ([0x80, 0x10, 0xC1], [(1, 0x10)], 0, [(1, 0)], 6), /- MULB, B2.27 -/
      ([0x80, 0x3F, 0xC1], [(1, 0x80)], 0, [(1, 0xFFFFFF80)], 2), /- MULB, B2.28 -/
      ([0x81, 0xC1, 0xC2], [(1, 0x38), (2, 0x45)], 0, [(1, 0x38), (2, 0xFFFFFF83)], 0), /- ADCD, B2.46 -/
      ([0x81, 0xC1, 0xC2], [(1, 0x99), (2, 0x99)], 1, [(1, 0x99), (2, 0xFFFFFF99)], 1) /- ADCD, B2.48 -/] : List Row).all Row.ok = true := by decide +kernel

theorem test_step_integer_arith_4 :
    ([([0x82, 0x3E, 0xC1], [(1, 3)], 0, [(1, 0xFFFFFFFA)], 8), /- MULH, B2.29 -/
      ([0x84, 0xC1, 0xC2], [(1, 0x10000), (2, 0x10000)], 0, [(1, 0x10000), (2, 0)], 6), /- MULW, B2.30 -/
      ([0x84, 0xC1, 0xC2], [(1, 0x10000), (2, 0xFFFF8000)], 0, [(1, 0x10000), (2, 0x80000000)], 8), /- MULW, B2.32 -/
      ([0x89, 0xC1, 0xC2], [(1, 0x1234FF80)], 0, [(1, 0x1234FF80), (2, 0xFFFFFF80)], 8), /- CVBW, B2.51 -/
      ([0x90, 0x14, 0xC1], [(1, 6)], 0, [(1, 3)], 0), /- DVRB, B2.39 -/
      ([0x91, 0xC1, 0xC2], [(1, 0x27), (2, 0x45)], 0, [(1, 0x27), (2, 0x18)], 0), /- SBBD, B2.49 -/
      ([0x91, 0xC1, 0xC2], [(1, 1), (2, 0)], 0, [(1, 1), (2, 0xFFFFFF99)], 1), /- SBBD, B2.50 -/
      ([0x92, 0xC1, 0xC2], [(1, 0x64), (2, 0xFFFFFFF9)], 0, [(1, 0x64), (2, 0xFFFFFFF2)], 8), /- DVRH, B2.40 -/
      ([0x94, 0xC1, 0xC2], [(1, 0xA), (2, 3)], 0, [(1, 0xA), (2, 3)], 0), /- DVRW, R238 -/
      ([0x99, 0xC1, 0xC2], [(1, 0x17FFF)], 0, [(1, 0x17FFF), (2, 0x7FFF)], 0), /- CVHW, B2.52 -/
      ([0xA0, 0x03, 0xC1], [(1, 0xFFFFFFF9)], 0, [(1, 0xFFFFFFFF)], 8), /- REMB, B2.42 -/
      ([0xA2, 0x3F, 0xC1], [(1, 0xFFFF8000)], 0, [(1, 0)], 4) /- REMH, B2.43 -/] : List Row).all Row.ok = true := by decide +kernel

theorem test_step_integer_arith_5 :
    ([([0xA4, 0xFD, 0xFD, 0xFF, 0xFF, 0xFF, 0xC2], [(2, 7)], 0, [(2, 1)], 0), /- REMW, B2.44 -/
      ([0xA9, 0xC1, 0xC2], [(1, 0x180)], 0, [(1, 0x180), (2, 0xFFFFFF80)], 2), /- CVWB, B2.53 -/
      ([0xA9, 0xC1, 0xC2], [(1, 0xFFFFFF80)], 0, [(1, 0xFFFFFF80), (2, 0xFFFFFF80)], 8), /- CVWB, B2.54 -/
      ([0xB0, 0xFD, 0xFE, 0xC1], [(1, 7)], 0, [(1, 0xFFFFFFFD)], 8), /- DIVB, B2.33 -/
      ([0xB2, 0x3F, 0xC1], [(1, 0xFFFF8000)], 0, [(1, 0xFFFF8000)], 2), /- DIVH, B2.34 -/
      ([0xB4, 0x03, 0xC2], [(2, 0xA)], 0, [(2, 3)], 0), /- DIVW, B2.35 -/
      ([0xB4, 0x3F, 0xC2], [(2, 0x80000000)], 0, [(2, 0x80000000)], 2), /- DIVW, B2.37 -/
      ([0xB9, 0xC1, 0xC2], [(1, 0xFFFF7FFF)], 0, [(1, 0xFFFF7FFF), (2, 0x7FFF)], 0xA) /- CVWH, B2.55 -/] : List Row).all Row.ok = true := by decide +kernel

theorem test_step_logic_shift_1 :
    ([([0x01, 0x01, 0xC1], [(1, 0x81)], 0, [(1, 2)], 1), /- SFTB, B3.12 -/
      ([0x01, 0x08, 0xC1], [(1, 1)], 0, [(1, 0)], 5), /- SFTB, B3.21 -/
      ([0x03, 0x3C, 0xC1], [(1, 0xFFFF8008)], 0, [(1, 0x800)], 1), /- SFTH, B3.14 -/
      ([0x05, 0x3F, 0xC0], [(0, 5)], 0, [(0, 2)], 1), /- SFTW, B3.15 -/
      ([0x05, 0xC2, 0xC1], [(1, 1), (2, 0x101)], 0, [(1, 2), (2, 0x101)], 0), /- SFTW, B3.20 -/
      ([0x11, 0x01, 0xC1], [(1, 0x40)], 0, [(1, 0xFFFFFF80)], 2), /- SFAB, B3.22 -/
      ([0x11, 0x3F, 0xC1], [(1, 0xFFFFFF81)], 0, [(1, 0xFFFFFFC0)], 9), /- SFAB, B3.23 -/
      ([0x13, 0x02, 0xC1], [(1, 0xFFFFFFFF)], 0, [(1, 0xFFFFFFFC)], 9), /- SFAH, B3.24 -/
      ([0x15, 0x3E, 0xC1], [(1, 0xFFFFFFF9)], 0, [(1, 0xFFFFFFFE)], 8), /- SFAW, B3.25 -/
      ([0x15, 0xFD, 0xD8, 0xC1], [(1, 0x7FFFFFFF)], 0, [(1, 0)], 4), /- SFAW, B3.30 -/
      ([0x21, 0x01, 0xC1], [(1, 1)], 0, [(1, 0xFFFFFF80)], 9), /- ROTB, B3.32 -/
      ([0x21, 0x09, 0xC1], [(1, 1)], 0, [(1, 0xFFFFFF80)], 9) /- ROTB, B3.37 -/] : List Row).all Row.ok = true := by decide +kernel

theorem test_step_logic_shift_2 :
    ([([0x23, 0x3C, 0xC1], [(1, 0x1234)], 0, [(1, 0x2341)], 1), /- ROTH, B3.33 -/
      ([0x25, 0x08, 0xC1], [(1, 0x12345678)], 0, [(1, 0x78123456)], 0), /- ROTW, B3.34 -/
      ([0x25, 0x00, 0xC1], [(1, 3)], 0, [(1, 3)], 1), /- ROTW, B3.38 -/
      ([0x31, 0xC1, 0xC2], [(1, 0x28)], 0, [(1, 0x28), (2, 3)], 0), /- FFOB, B3.39 -/
      ([0x31, 0xC1, 0xC2], [(1, 0x100)], 0, [(1, 0x100), (2, 8)], 4), /- FFOB, B3.40 -/
      ([0x33, 0xC1, 0xC2], [(1, 0x10000)], 0, [(1, 0x10000), (2, 0x10)], 4), /- FFOH, B3.41 -/
      ([0x35, 0xC1, 0xC2], [(1, 0x80000000)], 0, [(1, 0x80000000), (2, 0x1F)], 0), /- FFOW, B3.42 -/
      ([0x35, 0x01, 0xC2], [(2, 0x55)], 0, [(2, 0)], 0), /- FFOW, B3.44 -/
      ([0x41, 0x0F, 0xC1], [(1, 0x12F5)], 0, [(1, 5)], 0), /- ANDB, B3.1 -/
      ([0x43, 0xFD, 0x00, 0xFF, 0xC1], [(1, 0x1234ABCD)], 0, [(1, 0xFFFFAB00)], 8), /- ANDH, B3.2 -/
      ([0x45, 0xC1, 0xC2], [(1, 0xF0F0F0F0), (2, 0xF0F0F0F)], 0, [(1, 0xF0F0F0F0), (2, 0)], 4), /- ANDW, B3.3 -/
      ([0x51, 0xFD, 0x80, 0xC1], [(1, 1)], 0, [(1, 0xFFFFFF81)], 8) /- ORB, B3.4 -/] : List Row).all Row.ok = true := by decide +kernel

theorem test_step_logic_shift_3 :
    ([([0x55, 0xC1, 0xC2], [(1, 0x80000000), (2, 1)], 0x13, [(1, 0x80000000), (2, 0x80000001)], 9), /- ORW, B3.5 -/
      ([0x61, 0x3F, 0xC1], [(1, 0xF)], 0, [(1, 0xFFFFFFF0)], 8), /- XORB, B3.6 -/
      ([0x63, 0xC1, 0xC1], [(1, 0x1234)], 0, [(1, 0)], 4), /- XORH, R269 -/
      ([0x65, 0xC1, 0xC1], [(1, 0xDEADBEEF)], 0, [(1, 0)], 4), /- XORW, B3.7 -/
      ([0x71, 0xC1, 0xC2], [(1, 0xFF)], 0, [(1, 0xFF)], 4), /- NOTB, B3.8 -/
      ([0x73, 0xC1, 0xC2], [(1, 0xFFFF), (2, 7)], 0, [(1, 0xFFFF), (2, 0)], 4), /- NOTH, R272 -/
      ([0x75, 0x00, 0xC2], [], 0, [(2, 0xFFFFFFFF)], 8), /- NOTW, B3.9 -/
      ([0xC0, 0x01, 0xC1], [(1, 0x100)], 0, [(1, 0x100)], 4), /- BITB, B3.10 -/
      ([0xC2, 0xFD, 0x00, 0x80, 0xC1], [(1, 0xFFFF8000)], 0, [(1, 0xFFFF8000)], 8), /- BITH, R275 -/
      ([0xC4, 0xC1, 0xC2], [(1, 0x80000000), (2, 0xFFFFFFFF)], 0, [(1, 0x80000000), (2, 0xFFFFFFFF)], 8) /- BITW, B3.11 -/] : List Row).all Row.ok = true := by decide +kernel

theorem test_step_float_1 :
    ([([0x08, 0x20, 0xC1], [], 0, [(1, 0xC2000000)], 0), /- MOVR, B4.20 -/
      ([0x08, 0xFD, 0x00, 0x00, 0xC0, 0x7F, 0xC1], [], 0, [(1, 0x7FC00000)], 0), /- MOVR, B4.21 -/
      ([0x09, 0xC1, 0xC2], [(1, 0xFF)], 0, [(1, 0xFF), (2, 0xBF800000)], 9), /- CVBR, R344 -/
      ([0x0A, 0xC1, 0xCF], [(1, 0x11111111), (2, 0x22222222)], 0, [(0, 0x22222222), (1, 0x11111111), (2, 0x22222222), (15, 0x11111111)], 0), /- MOVL, B1.37 -/
      ([0x18, 0xC1, 0xC2], [(1, 0x3F800000)], 0, [(1, 0x3F800000), (2, 0xBF800000)], 9), /- NEGR, R322 -/
      ([0x19, 0xC1, 0xC2], [(1, 0x100)], 0, [(1, 0x100), (2, 0x43800000)], 0), /- CVHR, R345 -/
      ([0x1A, 0xC0, 0xC0], [(1, 0x40000000)], 0, [(0, 0), (1, 0xC0000000)], 9), /- NEGL, R323 -/
      ([0x28, 0xC1, 0xC2], [(1, 0x3F800000), (2, 0x40400000)], 0, [(1, 0x3F800000), (2, 0xC0000000)], 9), /- SBRR, B4.4 -/
      ([0x29, 0xC1, 0xC2], [(1, 0x1000001)], 0, [(1, 0x1000001), (2, 0x4B800000)], 0x20), /- CVWR, R346 -/
      ([0x2A, 0x01, 0xC2], [(3, 0x3FD00000)], 0, [(2, 0), (3, 0x3FE80000)], 0), /- SBRL, R331 -/
      ([0x38, 0xC1, 0xC2], [(1, 0x3F800000), (2, 0x40000000)], 0, [(1, 0x3F800000), (2, 0x40000000)], 9), /- CMPR, B4.18 -/
      ([0x38, 0xC1, 0xC2], [(1, 0x80000000), (2, 0)], 0, [(1, 0x80000000), (2, 0)], 4) /- CMPR, B4.19 -/] : List Row).all Row.ok = true := by decide +kernel

theorem test_step_float_2 :
    ([([0x39, 0xC0, 0xC2], [(1, 0x3FF80000)], 0, [(1, 0x3FF80000), (2, 0x3FC00000)], 0), /- CVLR, R347 -/
      ([0x3A, 0x00, 0xC2], [(3, 0x80000000)], 0, [(3, 0x80000000)], 4), /- CMPL, R335 -/
      ([0x48, 0xC1, 0xC2], [(1, 0x3F800000), (2, 0x40000000)], 0, [(1, 0x3F800000), (2, 0x40400000)], 0), /- ADDR, B4.1 -/
      ([0x49, 0x05, 0xC2], [], 0, [(2, 0), (3, 0x40140000)], 0), /- CVBL, R348 -/
      ([0x4A, 0xC0, 0xC2], [(0, 0), (1, 0x3CA00000), (2, 0), (3, 0x3FF00000)], 0, [(0, 0), (1, 0x3CA00000), (2, 0), (3, 0x3FF00000)], 0x20), /- ADDL, B4.5 -/
      ([0x4A, 0xC0, 0xC2], [(0, 0), (1, 0x3CA00000), (2, 0), (3, 0x3FF00000)], 0x3000000, [(0, 0), (1, 0x3CA00000), (2, 0), (3, 0x3FF00000)], 0x3000020), /- ADDL, B4.8 -/
      ([0x58, 0xC1, 0xC2], [(1, 0x40000000)], 0, [(1, 0x40000000), (2, 0x3FB504F3)], 0x20), /- SQTR, R342 -/
      ([0x59, 0xC1, 0xC2], [(1, 0x8000)], 0, [(1, 0x8000), (2, 0), (3, 0xC0E00000)], 9), /- CVHL, R349 -/
      ([0x5A, 0x09, 0xC2], [], 0, [(2, 0), (3, 0x40080000)], 0), /- SQTL, R343 -/
      ([0x68, 0xC1, 0xC2], [(1, 0x3F800000), (2, 0x3F800000)], 0, [(1, 0x3F800000), (2, 0)], 4), /- SUBR, B4.2 -/
      ([0x68, 0xC1, 0xC2], [(1, 0x3F800000), (2, 0x3F800000)], 0x2000000, [(1, 0x3F800000), (2, 0x80000000)], 0x2000004), /- SUBR, B4.3 -/
      ([0x69, 0xC1, 0xC2], [(1, 0x7FFFFFFF)], 0, [(1, 0x7FFFFFFF), (2, 0xFFC00000), (3, 0x41DFFFFF)], 0) /- CVWL, R350 -/] : List Row).all Row.ok = true := by decide +kernel

theorem test_step_float_3 :
    ([([0x6A, 0xC0, 0xC2], [(1, 0x3FE00000), (3, 0x40000000)], 0, [(1, 0x3FE00000), (2, 0), (3, 0x3FF80000)], 0), /- SUBL, R329 -/
      ([0x78, 0xC1, 0xC2], [(1, 0xBF800000), (2, 0x40400000)], 0, [(1, 0xBF800000), (2, 0xC0400000)], 9), /- SGNR, R324 -/
      ([0x79, 0xC1, 0xC2], [(1, 1)], 0, [(1, 1), (2, 0), (3, 0x36A00000)], 0), /- CVRL, R351 -/
      ([0x7A, 0x01, 0xC2], [(3, 0xC0140000)], 0, [(2, 0), (3, 0x40140000)], 0), /- SGNL, R325 -/
      ([0x88, 0xC1, 0xC2], [(1, 0x40000000), (2, 0x40400000)], 0, [(1, 0x40000000), (2, 0x40C00000)], 0), /- MULR, R332 -/
      ([0x8A, 0x02, 0xC2], [(2, 0), (3, 0x3FF80000)], 0, [(2, 0), (3, 0x40080000)], 0), /- MULL, B4.22 -/
      ([0x98, 0x03, 0xC2], [(2, 0x40000000)], 0, [(2, 0x3FC00000)], 0), /- DVRR, B4.17 -/
      ([0x9A, 0xC0, 0xC2], [(1, 0x40080000), (3, 0x40000000)], 0, [(1, 0x40080000), (2, 0), (3, 0x3FF80000)], 0), /- DVRL, R339 -/
      ([0xA8, 0xC1, 0xC2], [(1, 0x40400000), (2, 0x40E00000)], 0, [(1, 0x40400000), (2, 0x3F800000)], 4), /- REMR, R340 -/
      ([0xAA, 0x02, 0xC2], [(3, 0xC0140000)], 0, [(2, 0), (3, 0xBFF00000)], 0xD), /- REML, R341 -/
      ([0xB8, 0x03, 0xC2], [(2, 0x3F800000)], 0, [(2, 0x3EAAAAAB)], 0x20), /- DIVR, B4.12 -/
      ([0xB8, 0x03, 0xC2], [(2, 0x3F800000)], 0x3000000, [(2, 0x3EAAAAAA)], 0x3000020) /- DIVR, B4.15 -/] : List Row).all Row.ok = true := by decide +kernel

theorem test_step_float_4 :
    ([([0xBA, 0xC0, 0xC2], [(1, 0x40000000), (3, 0x3FF80000)], 0, [(1, 0x40000000), (2, 0), (3, 0x3FE80000)], 0), /- DIVL, R337 -/
      ([0xC9, 0xC1, 0xC2], [(1, 0x40200000)], 0, [(1, 0x40200000), (2, 2)], 0x20), /- CVRW, R352 -/
      ([0xC9, 0xC1, 0xC2], [(1, 0x40200000)], 0x1000000, [(1, 0x40200000), (2, 3)], 0x1000020), /- CVRW, R352 -/
      ([0xD9, 0xC0, 0xC2], [(1, 0xC1E00000)], 0, [(1, 0xC1E00000), (2, 0x80000000)], 8), /- CVLW, R353 -/
      ([0xD9, 0xC0, 0xC2], [(1, 0x41E00000)], 0, [(1, 0x41E00000), (2, 0x80000000)], 2) /- CVLW, R353 -/] : List Row).all Row.ok = true := by decide +kernel

theorem test_step_control_1 :
    ([([0x1E, 0xCF], [], 0, [], 0x7C000000), /- REP, R400 -/
      ([0x2E, 0xC1], [], 0, [], 0x84000000), /- REPZ, R405 -/
      ([0x3E, 0xC2], [], 0, [], 0xC8000000), /- REPNZ, R406 -/
      ([0xE5, 0x10, 0xC1], [], 0, [(1, 0x1010)], 0), /- MOVA, B5.16 -/
      ([0xE5, 0xC2, 0xC1], [(2, 0x20)], 0, [(1, 0x1020), (2, 0x20)], 0) /- MOVA, B5.20 -/] : List Row).all Row.ok = true := by decide +kernel

theorem test_step_system_1 :
    ([([0x0B], [], 0x1F, [], 0x1F), /- NOP, B6.1 -/
      ([0x1B], [], 0x1F, [], 0x1E), /- CLC, B6.2 -/
      ([0x2B], [], 0, [], 1), /- STC, B6.3 -/
      ([0x3B], [], 1, [], 0), /- CMC, B6.4 -/
      ([0x85, 0xC1, 0x06], [(1, 0xFFFFFFFF)], 0, [(1, 0xFFFFFFFF)], 0), /- LDPR, R426 (to a read-only register) -/
      ([0x8B], [], 0, [], 0x100000), /- EI, B6.5 -/
      ([0x95, 0x01, 0xC2], [], 0x10001F, [(2, 0x10001F)], 0x100001), /- STPR, B6.27 -/
      ([0x9B], [], 0x100001, [], 1) /- DI, B6.6 -/] : List Row).all Row.ok = true := by decide +kernel

/-- ORH #1,(R1) (R266), MOVW STK,R2 (B1.31), ADDW (R1)+,(R1)+ (B1.34), SUBW STK,STK (B1.39), FFOW STK,STK (B1.45),
MOVW R2,STK (B1.32), and a move through an indirect mode (B1.19). -/
theorem test_step_memory_operands :
    after ((filled (start [(1, 0x4000)] 0) [(0x4000, 2, 0x8000)]).placed [0x53, 0x01, 0x41])
        (holds [(1, 0x4000)] 8 0x1003 0x8000 [(0x4000, 2, 0x8001)]) = true ∧
      after ((filled (start [] 0) [(0x8000, 4, 10)]).placed [0x04, 0xFC, 0xC2])
        (holds [(2, 10)] 0 0x1003 0x8004 []) = true ∧
      after ((filled (start [(1, 0x4000)] 0) [(0x4000, 4, 5), (0x4004, 4, 7)]).placed [0x44, 0x61, 0x61])
        (holds [(1, 0x4008)] 0 0x1003 0x8000 [(0x4000, 4, 5), (0x4004, 4, 12)]) = true ∧
      after ((filled (start [] 0) [(0x8000, 4, 10), (0x8004, 4, 3)]).placed [0x64, 0xFC, 0xFC])
        (holds [] 9 0x1003 0x8004 [(0x8004, 4, 0xFFFFFFF9)]) = true ∧
      after ((filled (start [] 0) [(0x8000, 4, 0x28)]).placed [0x35, 0xFC, 0xFC])
        (holds [] 0 0x1003 0x8003 [(0x8003, 1, 3)]) = true ∧
      after ((start [(2, 0x77)] 0).placed [0x04, 0xC2, 0xFC]) (holds [] 0 0x1003 0x7FFC [(0x7FFC, 4, 0x77)]) = true ∧
      after ((filled (start [(1, 0x4000)] 0) [(0x4004, 4, 0x5000), (0x5000, 4, 0xAABBCCDD)]).placed
          [0x04, 0xB1, 4, 0, 0, 0, 0xC2])
        (holds [(1, 0x4000), (2, 0xAABBCCDD)] 0 0x1007 0x8000 []) = true := by decide +kernel

/-- The pc after the branch `opcode +16` at 0x1000 under flags `ps`: taken or not. -/
def goesOn (opcode : Byte) (ps : Word) (taken : Bool) : Bool :=
  after ((start [] ps).placed [opcode, 0x10]) (holds [] ps (if taken then 0x1010 else 0x1002) 0x8000 [])

/-- The branch table of B5: the twelve conditions under the flags of six compares, and the eight that U = 1 leaves. -/
theorem test_step_branches :
    ([(0x9F, [false, false, true, false, false]), (0x8F, [true, true, false, true, true]),
      (0x0F, [false, true, false, false, true]), (0x4F, [false, true, true, false, true]),
      (0x5F, [true, false, false, true, false]), (0x1F, [true, false, true, true, false]),
      (0x2F, [false, true, false, true, false]), (0x6F, [false, true, true, true, false]),
      (0x7F, [true, false, false, false, true]), (0x3F, [true, false, true, false, true]),
      (0xBF, [false, false, false, false, false]), (0xAF, [true, true, true, true, true])] :
      List (Byte × List Bool)).all (fun r => (List.zip [9, 0, 4, 8, 1] r.2).all (fun x => goesOn r.1 x.1 x.2)) = true ∧
    ([(0x9F, false), (0x8F, true), (0x2F, true), (0x6F, true), (0x7F, true), (0x3F, true), (0xBF, false), (0xAF, true)] :
      List (Byte × Bool)).all (fun r => goesOn r.1 0x10 r.2) = true := by decide +kernel

/-- BG with U = 1 takes interrupt 9 with IN set and pc0 pushed (R390, B5). -/
theorem test_step_signed_branch_unordered :
    after ((filled (start [] 0x10) [(0x48, 4, 0x2090)]).placed [0x0F, 0x10])
      (holds [] 0 0x2090 0x7FF8 [(0x7FFC, 4, 0x210), (0x7FF8, 4, 0x1000)]) = true := by decide +kernel

/-- JMP (B5.1, B5.2, B5.4, B5.8), CALL (B5.11), RET (B5.13), RETP (B5.14), MOVA through the stack pointer (B5.18). -/
theorem test_step_transfers :
    after ((start [] 0).placed [0xDF, 0x10]) (holds [] 0 0x1010 0x8000 []) = true ∧
      after ((start [] 0).placed [0xDF, 0x38]) (holds [] 0 0xFF8 0x8000 []) = true ∧
      after ((start [(1, 0xFFFFFFF0)] 0).placed [0xDF, 0xC1]) (holds [] 0 0xFF0 0x8000 []) = true ∧
      after ((filled (start [(1, 0x4000)] 0) [(0x4000, 4, 0x6000)]).placed [0xDF, 0x71])
        (holds [(1, 0x4004)] 0 0x6000 0x8000 []) = true ∧
      after ((start [] 0).placed [0xCF, 0x10]) (holds [] 0 0x1010 0x7FFC [(0x7FFC, 4, 0x1002)]) = true ∧
      after ((filled (start [] 0) [(0x8000, 4, 0x1234)]).placed [0xEB]) (holds [] 0 0x1234 0x8004 []) = true ∧
      after ((filled (start [] 0) [(0x8000, 4, 0x1234)]).placed [0xEF, 0x08]) (holds [] 0 0x1234 0x800C []) = true ∧
      after ((start [] 0).placed [0xE5, 0xF4, 0x04, 0xC1]) (holds [(1, 0x8004)] 0 0x1004 0x8000 []) = true := by
  decide +kernel

/-- One step of a repeat: it goes on (A1), it ends on a zero count (B5.24), it refuses its own count register (U3). -/
theorem test_step_repeat :
    after ((filled (start [(4, 0x4000), (15, 3)] 0x7C000000) [(0x4000, 4, 0x3F800000)]).placed [0x48, 0x64, 0xCA])
        (holds [(4, 0x4004), (10, 0x3F800000), (15, 2)] 0x7C000000 0x1000 0x8000 []) = true ∧
      after ((start [(3, 0), (1, 0x4000)] 0x4C000000).placed [0x44, 0x61, 0xC2])
        (holds [(1, 0x4000), (3, 0)] 0x0C000000 0x1003 0x8000 []) = true ∧
      after ((start [(3, 1)] 0x4C000000).placed [0xDF, 0x10]) (holds [(3, 0)] 0x0C000000 0x1010 0x8000 []) = true ∧
      (match step ((start [(3, 2)] 0x4C000000).placed [0x44, 0xC3, 0xC2]) with
        | .refused .repeatCountUsed => true
        | _ => false) = true := by decide +kernel

/-- The exceptions of instructions: integer zero divide (B2.38), integer overflow (B2.56), the overflow and underflow of
MULR (B4.9, B4.11), an inexact DIVR (B4.16), DIVR by zero and SQTR of -1.0 (the table after B8), a reserved opcode
(B8.1), Operand Error (B1.47, B1.50), Address Error (B1.54) and Stack Overflow (B8.21). -/
theorem test_step_exceptions :
    after ((filled (start [(2, 7)] 0) [(0x20, 4, 0x2040)]).placed [0xB4, 0xC1, 0xC2])
        (holds [(2, 7)] 0 0x2040 0x7FF8 [(0x7FFC, 4, 0), (0x7FF8, 4, 0x1000)]) = true ∧
      after ((filled (start [(1, 0x7F)] 0x108000) [(0x18, 4, 0x2030)]).placed [0x40, 0x01, 0xC1])
        (holds [(1, 0xFFFFFF80)] 0 0x2030 0x7FF8 [(0x7FFC, 4, 0x108002), (0x7FF8, 4, 0x1000)]) = true ∧
      after ((filled (start [(1, 0x5F800000), (2, 0x5F800000)] 0) [(0x40, 4, 0x2080)]).placed [0x88, 0xC1, 0xC2])
        (holds [(2, 0x40000000)] 0 0x2080 0x7FF8 [(0x7FFC, 4, 0x100), (0x7FF8, 4, 0x1000)]) = true ∧
      after ((filled (start [(1, 0x0D800000), (2, 0x0D800000)] 0) [(0x30, 4, 0x2060)]).placed [0x88, 0xC1, 0xC2])
        (holds [(2, 0x1B000000)] 0 0x2060 0x7FF8 [(0x7FFC, 4, 0x40)]) = true ∧
      after ((filled (start [(2, 0x3F800000)] 0x100400) [(0x28, 4, 0x2050)]).placed [0xB8, 0x03, 0xC2])
        (holds [(2, 0x3EAAAAAB)] 0 0x2050 0x7FF8 [(0x7FFC, 4, 0x100420)]) = true ∧
      after ((filled (start [(2, 0x3F800000)] 0) [(0x38, 4, 0x2070)]).placed [0xB8, 0xC1, 0xC2])
        (holds [(2, 0x3F800000)] 0 0x2070 0x7FF8 [(0x7FFC, 4, 0x80)]) = true ∧
      after ((filled (start [(1, 0xBF800000), (2, 5)] 0) [(0x48, 4, 0x2090)]).placed [0x58, 0xC1, 0xC2])
        (holds [(2, 5)] 0 0x2090 0x7FF8 [(0x7FFC, 4, 0x200)]) = true ∧
      after ((filled (start [] 0x100000) [(0x50, 4, 0x20A0)]).placed [0x06])
        (holds [] 0 0x20A0 0x7FF8 [(0x7FFC, 4, 0x100000), (0x7FF8, 4, 0x1000)]) = true ∧
      after ((filled (start [] 0) [(0x80, 4, 0x2100)]).placed [0x04, 0xFE, 0xC1])
        (holds [] 0 0x2100 0x7FF8 [(0x7FF8, 4, 0x1002)]) = true ∧
      after ((filled (start [(1, 0x4000)] 0) [(0x80, 4, 0x2100)]).placed [0x04, 0x61, 0x05])
        (holds [(1, 0x4004)] 0 0x2100 0x7FF8 [(0x7FF8, 4, 0x1003)]) = true ∧
      after ((filled (start [(1, 0xFFFFFFFC)] 0) [(0x58, 4, 0x20B0)]).placed [0x04, 0x81, 0x08, 0xC2])
        (holds [] 0 0x20B0 0x7FF8 [(0x7FF8, 4, 0x1000)]) = true ∧
      after ((filled { start [(1, 9)] 0 with sp := 0x800 } [(0x60, 4, 0x20C0)]).placed [0x04, 0xC1, 0xFC])
        (holds [] 0 0x20C0 0x7F4 [(0x7FC, 4, 9), (0x7F8, 4, 0), (0x7F4, 4, 0x1000)]) = true := by decide +kernel

/-- Trace (B8.4), time out (B8.11, B8.13), a corrected error and Output Ready 32 (the table after B8). -/
theorem test_step_asynchronous :
    after ((filled (start [] 0x200000) [(8, 4, 0x2010)]).placed [0x0B])
        (holds [] 0 0x2010 0x7FF8 [(0x7FFC, 4, 0x200000), (0x7FF8, 4, 0x1001)]) = true ∧
      after ((filled (start [] 0x120000) [(0x68, 4, 0x20D0)]).placed [0x0B])
        (holds [] 0 0x20D0 0x7FF8 [(0x7FFC, 4, 0x120000), (0x7FF8, 4, 0x1001)]) = true ∧
      after ({ start [] 0x120000 with tr := 5 }.placed [0x0B]) (holds [] 0x120000 0x1001 0x8000 []) = true ∧
      after ((filled { start [] 0x110000 with ceLatch := true } [(0x70, 4, 0x20E0)]).placed [0x0B])
        (fun t => holds [] 0 0x20E0 0x7FF8 [(0x7FF8, 4, 0x1001)] t && !t.ceLatch) = true ∧
      after ((filled { start [] 0x180000 with oe := 1 } [(0x100, 4, 0x2200)]).placed [0x0B])
        (holds [] 0 0x2200 0x7FF8 [(0x7FF8, 4, 0x1001)]) = true := by decide +kernel

/-- BKPT (B6.9), TRAP by immediate and by a negative literal (B6.11, B6.13), RETI (B6.17). -/
theorem test_step_software_interrupts :
    after ((filled (start [] 0x100004) [(0x10, 4, 0x2020)]).placed [0x6B])
        (holds [] 0 0x2020 0x7FF8 [(0x7FFC, 4, 0x100004), (0x7FF8, 4, 0x1001)]) = true ∧
      after ((filled (start [] 0x100000) [(0x140, 4, 0x2280)]).placed [0x4E, 0xFD, 0x28])
        (holds [] 0 0x2280 0x7FF8 [(0x7FFC, 4, 0x100000), (0x7FF8, 4, 0x1003)]) = true ∧
      after ((filled (start [] 0) [(0x7F8, 4, 0x2FF0)]).placed [0x4E, 0x3F])
        (holds [] 0 0x2FF0 0x7FF8 [(0x7FF8, 4, 0x1002)]) = true ∧
      after ((filled { start [] 0 with sp := 0x7FF8 } [(0x7FF8, 4, 0x3002), (0x7FFC, 4, 0x100000)]).placed [0xCB])
        (holds [] 0x100000 0x3002 0x8000 []) = true := by decide +kernel

/-- ERON, EROF, WAIT (B6.7, B6.8, B6.19), RSET (B9, B7.27), LDPR and STPR (B6.20, B6.22, B6.28, B6.29), refused (B6.32). -/
theorem test_step_system :
    after ({ start [] 0 with errorFlag := false }.placed [0x4B]) (fun t => t.errorFlag && t.pc == 0x1001) = true ∧
      after ((start [] 0).placed [0x5B]) (fun t => !t.errorFlag && t.pc == 0x1001) = true ∧
      after ((start [] 0).placed [0xDB]) (fun t => t.idle && t.pc == 0x1001) = true ∧
      after ({ (start [(5, 0x1234)] 0x0010000F).setOut 0 ⟨0x5008, 92, false, [7]⟩ with
          tr := 77, oe := 3, ie := 0x80000000, errorFlag := false }.placed [0x7B])
        (fun t => holds [(5, 0x1234)] 0x0010000F 0x1001 0x8000 [] t && t.tr == 77 && t.oe == 3 && t.ie == 0x80000000 &&
          !t.errorFlag && t.outPort 0 == ⟨0, 0, false, [7]⟩) = true ∧
      after ((start [(1, 0x2A)] 0).placed [0x85, 0xC1, 0x04]) (fun t => t.pi == 0x2A && t.pc == 0x1003) = true ∧
      after ((start [(1, 0x9000)] 0).placed [0x85, 0xC1, 0x00]) (holds [] 0 0x1003 0x9000 []) = true ∧
      after ((start [] 0).placed [0x95, 0x00, 0xFC]) (holds [] 0 0x1003 0x7FFC [(0x7FFC, 4, 0x8000)]) = true ∧
      after ((start [] 0).placed [0x95, 0x06, 0xC0]) (holds [(0, 0x800003FF)] 8 0x1003 0x8000 []) = true ∧
      (match step ((start [] 0).placed [0x85, 0xC1, 0x0D]) with
        | .refused (.processorRegister 13) => true
        | _ => false) = true := by decide +kernel

/-- LPTR (B7.1, B7.7), LCNT (B7.2, B7.4), BPTR and BCNT (B7.8, B7.9), and what they refuse (B7.5, B7.10). -/
theorem test_step_channels :
    after ((start [(1, 0x4001)] 0).placed [0xB5, 0xC1, 0x00])
        (fun t => (t.inPort 0).address == 0x4000 && t.pc == 0x1003) = true ∧
      after ((start [(1, 0x4001)] 0).placed [0xB5, 0xC1, 0xFD, 0x20, 0, 0, 0])
        (fun t => (t.outPort 0).address == 0x4000 && t.pc == 0x1007) = true ∧
      after ((start [(1, 7)] 0).placed [0xA5, 0xC1, 0x00])
        (fun t => (t.inPort 0).count == 6 && t.readyIn == 0x800003FE) = true ∧
      after ((start [] 0).placed [0xA5, 0x04, 0xFD, 0x3F])
        (fun t => (t.outPort 10).count == 4 && t.readyOut == 0x3FF && t.pc == 0x1004) = true ∧
      after ((start [(1, 0x5000)] 0).placed [0xD5, 0xC1, 0xFD, 1, 0, 0, 0x80])
        (fun t => (t.outPort 0).address == 0x5000 && (t.outPort 10).address == 0x5000 && (t.outPort 1).address == 0) =
          true ∧
      after ((start [] 0).placed [0xC5, 0x10, 0xFD, 1, 0, 0, 0x80])
        (fun t => (t.outPort 0).count == 16 && (t.outPort 10).bcast && !(t.outPort 1).bcast && t.readyOut == 0x3FE) =
          true ∧
      (match step ((start [] 0).placed [0xA5, 0x04, 0x3F]) with
        | .refused (.portNumber 255) => true
        | _ => false) = true ∧
      (match step ((start [] 0).placed [0xD5, 0xC1, 0xFD, 0, 4, 0, 0]) with
        | .refused (.broadcastMask 0x400) => true
        | _ => false) = true := by decide +kernel

/-- The answer of an agent's step. -/
def moved (e : Event) (s : State) (check : State → Bool) : Bool :=
  match agentStep e s with
  | .next t => check t
  | _ => false

/-- An arrival and its store (B7.20, B7.21), an overrun (B7.22), a send, a tick that stops at zero (R38). -/
theorem test_agents :
    moved (.arrive 0 0xBEEF false) (start [] 0)
        (fun t => t.inPort 0 == ⟨0, 0, 0xBEEF, true, false, false⟩ && t.pendingIn == 1) = true ∧
      moved (.store 0) ((start [] 0).setIn 0 ⟨0x5000, 2, 0xBEEF, true, false, false⟩)
        (fun t => t.mem.readN 0x5000 2 == 0xBEEF && t.inPort 0 == ⟨0x5002, 0, 0xBEEF, false, false, false⟩) = true ∧
      moved (.arrive 0 0x2222 false) ((start [] 0).setIn 0 ⟨0, 0, 0x1111, true, false, false⟩)
        (fun t => t.inPort 0 == ⟨0, 0, 0x2222, true, false, true⟩ && t.overrunIn == 1 && t.pendingIn == 1) = true ∧
      moved (.send 0) (filled ((start [] 0).setOut 0 ⟨0x4000, 4, false, []⟩) [(0x4000, 4, 0x44332211)])
        (fun t => t.outPort 0 == ⟨0x4002, 2, false, [0x2211]⟩) = true ∧
      moved .tick { start [] 0 with tr := 1 } (fun t => t.tr == 0) = true ∧
      moved .tick (start [] 0) (fun t => t.tr == 0) = true := by decide +kernel

/-- A channel's store falls between the two accesses of a Word (R86, D3): the Word read is torn, and a store between the
read and the write of a modified operand is lost (R99). -/
theorem test_step_interleaved :
    after { (filled ((start [(1, 0x5000)] 0).setIn 0 ⟨0x5002, 2, 0xBEEF, true, false, false⟩)
          [(0x5000, 4, 0x11112222)]).placed [0x04, 0x41, 0xC2] with bus := [[], [.store 0]] }
        (holds [(2, 0xBEEF2222)] 0 0x1003 0x8000 []) = true ∧
      after { (filled ((start [(1, 0x5000)] 0).setIn 0 ⟨0x5000, 2, 0xBEEF, true, false, false⟩)
          [(0x5000, 4, 5)]).placed [0x44, 0x01, 0x41] with bus := [[], [], [.store 0]] }
        (holds [] 0 0x1003 0x8000 [(0x5000, 4, 6)]) = true := by decide +kernel

/-- A popped operand is read at its pop, and no store after it changes it (R176); a store to the specifier of REFERENCE 2
while the pointer of REFERENCE 1 is read makes its fetch stale (R100). -/
theorem test_step_read_once :
    after { (filled ((start [(2, 0x5000)] 0).setIn 0 ⟨0x7F00, 2, 0xBEEF, true, false, false⟩)
          [(0x5000, 4, 0x5100), (0x7F00, 4, 9)]).placed [0x04, 0xFC, 0x72] with
        sp := 0x7F00, bus := [[], [], [.store 0]] }
        (fun t => t.mem.readN 0x5100 4 == 9 && t.mem.readN 0x7F00 4 == 0xBEEF && t.sp == 0x7F04) = true ∧
      (match step { (filled ((start [(1, 0x5000)] 0).setIn 0 ⟨0x1002, 2, 0xC3, true, false, false⟩)
          [(0x5000, 4, 0x5100)]).placed [0x04, 0x71, 0xC2] with bus := [[.store 0]] } with
        | .refused (.staleFetch 0x1002) => true
        | _ => false) = true := by decide +kernel

/-- A NOP at the last address of a full address space: pc is then past the end, and the fetch of the next instruction is an
Address Error, not one at 0 (R24). -/
theorem test_step_past_end :
    after { start [] 0 with
        pc := 0xFFFFFFFF, cfg := { Params.default with memSize := 2 ^ 32 }, mem := [(0x59, 0x21), (0xFFFFFFFF, 0x0B)] }
        (fun t => t.pc == 0 && t.pastEnd && after t (fun u => u.pc == 0x2100 && !u.pastEnd)) = true := by decide +kernel

/-- A byte written 16 ahead stays suspect over a branch to it, and not over one to distant code (R100). -/
theorem test_step_stale :
    after { (start [] 0).placed [0xDF, 0x10] with fetch := ⟨[0x1010], [], []⟩ }
        (fun t => t.pc == 0x1010 && staleByte t 1 == some 0x1010) = true ∧
      after { (start [] 0).placed [0xDF, 0xF9, 0x00, 0x18] with fetch := ⟨[0x1010, 0x1800], [], []⟩ }
        (fun t => t.pc == 0x1800 && staleByte t 1 == none) = true := by decide +kernel

/-- A suspect byte of REFERENCE 2 is refused where that reference is fetched, and not where REFERENCE 1 raises 11 before it
(R100, R150). -/
theorem test_step_second_not_fetched :
    let s (r : Word) : State := { (start [(1, r)] 0).placed [0x04, 0x81, 0x01, 0xC2] with fetch := ⟨[0x1003], [], []⟩ }
    after { s 0xFFFFFFFF with mem := (s 0xFFFFFFFF).mem.writeN 0x58 4 0x2100 }
        (fun t => t.pc == 0x2100 && t.mem.readN 0x7FF8 4 == 0x1000) = true ∧
      (match step (s 0x5000) with
        | .refused (.staleFetch 0x1003) => true
        | _ => false) = true := by decide +kernel

/-- A reference that the end of a full address space cuts off is an Address Error, but where a byte of it that is there is
suspect: MOVW's second, 81 without its offset, and JMP's only one, also where a repeat skips it (R24, R100). -/
theorem test_step_cut_off :
    let s (ps : Word) (pc : Word) (bytes : List Byte) (suspect : Nat) : State :=
      { { start [(1, 0x5000)] ps with
          pc := pc, cfg := { Params.default with memSize := 2 ^ 32 }, mem := [(0x59, 0x21)] }.placed bytes with
        fetch := ⟨[suspect], [], []⟩ }
    after (s 0 0xFFFFFFFD [0x04, 0xC1, 0x81] 0x5000) (fun t => t.pc == 0x2100) = true ∧
      ([(0, 0xFFFFFFFD, [0x04, 0xC1, 0x81], 0xFFFFFFFF), (0, 0xFFFFFFFD, [0xDF, 0xF9, 0x00], 0xFFFFFFFF),
          (0x4C000000, 0xFFFFFFFE, [0xDF, 0xF9], 0xFFFFFFFF)].all fun p =>
        match step (s p.1 p.2.1 p.2.2.1 p.2.2.2) with
        | .refused (.staleFetch 0xFFFFFFFF) => true
        | _ => false) = true := by decide +kernel

/-- An instruction ends at a specifier that is an Operand Error (R400, R499): the offset of REP's, past the end of memory,
is not read; and the literal destination of a skipped MOVW raises 16 (log 16). -/
theorem test_step_operand_error_ends :
    after ({ filled (start [] 0) [(0x80, 4, 0x2100)] with pc := 0x1FFFE }.placed [0x1E, 0xA1])
        (holds [] 0 0x2100 0x7FF8 [(0x7FF8, 4, 0x20000)]) = true ∧
      after ((filled (start [] 0x4C000000) [(0x80, 4, 0x2100)]).placed [0x04, 0xC1, 0x05])
        (fun t => t.pc == 0x2100 && t.mem.readN 0x7FF8 4 == 0x1003) = true := by decide +kernel

/-- FR's fields of the first operand after an inexact CVWR of a negative number (R33, R313). -/
theorem test_whole_number_sign :
    (match intToRealCalc .r PsReg.zero (0xFEFFFFFF : Word) with
      | .done v _ sig _ => v == 0xCB800000 && sig.fp.map (fun f => (f.1, f.2.first)) == some (.inexact, ⟨true, false, false, false⟩)
      | .raise _ _ _ => false) = true := by decide +kernel

/-- A halfword crosses a link of an order-1 cube, from port 32 of node 0 to port 0 of node 1 (R545, P6), and by no event of
a node of its own. -/
theorem test_cube_delivers :
    let c : Cube := { Cube.reset 1 0 (portWiring 1) (fun _ => true) Params.default with
      nodes := [{ (start [] 0).setOut 0 ⟨0x4002, 0, false, [0x2211]⟩ with events := [.deliver 0] }, start [] 0] }
    ((c.deliver 0 0 false).nodes.map fun s => ((s.outPort 0).link, (s.inPort 0).latch, (s.inPort 0).full)) =
        [([], 0, false), ([], 0x2211, true)] ∧
      ((c.nodes.map fun s => s.among fun d => d != 10).map State.events) = [[], []] := by
  decide +kernel

/-- Cubes as they are wired: one after reset, with host channels and without; a link back to its own node is none (R457). -/
theorem test_cube_wired :
    (Cube.reset 1 0 (portWiring 1) (fun _ => true) Params.default).wired = true ∧
      (Cube.reset 1 0 (portWiring 1) (fun x => x == 0) Params.default).wired = true ∧
      ((List.range 2).map fun x => inWires (portWiring 1) (fun x => x == 0) x) =
        [#v[true, false, false, false, false, false, false, false, false, false, true],
          #v[true, false, false, false, false, false, false, false, false, false, false]] ∧
      ({ Cube.reset 1 0 (portWiring 1) (fun _ => true) Params.default with wiring := [⟨0, 0, 0, 0⟩] } : Cube).wired =
        false := by decide +kernel

/-- The reset of a board loses what is on its way to it (D62), and keeps what its nodes have sent elsewhere (R470). -/
theorem test_board_reset :
    let c : Cube := ⟨7, 2, [⟨0, 6, 64, 6⟩, ⟨64, 6, 0, 6⟩], []⟩
    let s := (start [(1, 5)] 0).setOut 6 ⟨0x4002, 2, false, [0x2211]⟩
    (((c.resetNode 3 0 s).outPort 6).link, (c.resetNode 3 0 s).reg 1) = ([], 5) ∧
      (((c.resetNode 3 64 s).outPort 6).link, (c.resetNode 3 64 s).reg 1) = ([0x2211], 0) := by decide +kernel

/-- Node 1 of the board in slot 3 reaches processor 7 through channel 0 and processor 71 through channel 1 (R547, A10). -/
theorem test_host_wiring : hostPeer 3 1 0 = 7 ∧ hostPeer 3 1 1 = 71 := by decide

/-- The time constants of the table of R564, by tenths of a baud. -/
theorem test_baud_constants :
    ([192000, 96000, 48000, 36000, 24000, 20000, 18000, 12000, 6000, 3000, 1500, 1345, 1100, 750, 500].map baudConstant) =
      [1, 4, 10, 14, 22, 27, 30, 46, 94, 190, 382, 426, 522, 766, 1150] := by decide

/-- A board after reset. -/
def board : Board := Board.reset 3 0x1234 0x56 [] defaultLocalChannels (fun _ c => c.val < 8) Params.default

/-- The board after events, after 16-bit writes to I/O addresses, and after writes of bytes, each where it ends well. -/
def events (es : List BoardEvent) (b : Board) : Board := es.foldl (fun b e => (b.event e).toOption.getD b) b
def out (ws : List (Nat × Half)) (b : Board) : Board := ws.foldl (fun b w => (b.ioWrite w.1 w.2).getD b) b
def outBytes (ws : List (Nat × Byte)) (b : Board) : Board := ws.foldl (fun b w => (b.ioWriteByte w.1 w.2).getD b) b

/-- What the 80286 reads from memory, and the board after it; the board after a write of 16 bits. -/
def fetch (n a : Nat) (b : Board) : Board × Option Nat := (b.memRead n a).toOption.getD (b, none)
def put (a v : Nat) (b : Board) : Board := ((b.memWrite 2 a v).toOption.bind id).getD b

/-- A sensor takes two writes at one address, and is read there (R569); Control latches the front panel (R567). -/
theorem test_board_registers :
    let b := events [.temperature 5 37] board
    (((b.ioWrite 0x3A 5).bind (·.ioWrite 0x3A 0xF5)).map fun t => (t.ioRead 0 0x3A, t.ioRead 0 0x38, t.pending)) =
        some (some 37, none, [.temperature]) ∧
      ((b.ioWrite 0x3A 5).bind (·.ioWrite 0x3C 5)).map Board.pending = some [] ∧
      b.ioRead 0 0x18 = some 0x91A3 ∧ b.ioRead 0 0x16 = some 0xFC00 ∧
      (let t := events [.frontPanel] (out [(0x12, 0x4060)] b); (t.ioRead 0 0x16, t.nonMaskable)) = (some 0xDC00, true) ∧
      (events [.frontPanel] b).nmi = 0 := by decide +kernel

/-- The Error flag of a node of the board signals nothing on its grounded pin, so that vector 73 is not raised (R622). -/
theorem test_grounded_error :
    (events [.localError] { board with nodes := board.nodes.map fun s : State => { s with errorFlag := true } }).pending =
        [] ∧
      (board.nodes.toList.all fun s => s.cfg.ioBoard) = true := by decide +kernel

/-- The syndromes of the sixteen data bits are those that the table gives (R568). -/
theorem test_syndromes : dataSyndromes.zipIdx.all (fun p => syndromeOf (p.1.setWidth 8) == .data p.2) = true := by decide

/-- An error in data bit 3 of a halfword of the system RAM is an NMI cause with its syndrome, is corrected where Control
bit 0 is 0 and not where it is 1 (R567, R568); with bit 1 at 1 a write leaves the check bits as they were. -/
theorem test_system_ram :
    let b := events [.ramError 0x80 8 0] (put 0x100 0x1234 board)
    (fetch 2 0x100 b).2 = some 0x1234 ∧ (fetch 1 0x101 b).2 = some 0x12 ∧
      ((fetch 2 0x100 b).1.nmi, b.ramSyndrome 0x80) = (2, 25) ∧
      (fetch 2 0x100 (out [(0x12, 1)] b)).2 = some 0x123C ∧
      (fetch 2 0x100 (put 0x100 1 (out [(0x12, 2)] board))).1.nmi = 2 := by decide +kernel

/-- A register of a serial channel takes two steps, after which bits 0 to 4 of WR0 are cleared and its other bits stay; the
vector is the controller's; the buffers have an address of their own; the access is of a byte (R564). -/
theorem test_serial :
    let b := outBytes [(0xD4, 0x2C), (0xD4, 5), (0xD0, 2), (0xD0, 0x28), (0xD6, 0x41)] board
    let t := outBytes [(0xD4, 0x2C)] b
    let c := (b.serial.get 0).channels.get 0
    (c.commands, c.constantLow, c.sent, c.timeConstant, (b.serial.get 0).vector) = (0x20, 5, 0x41, 5, 0x28) ∧
      (t.ioReadByte 0xD4).2 = some 5 ∧ ((t.ioReadByte 0xD4).1.ioReadByte 0xD4).2 = some 0 ∧
      ((events [.serial 7 .buffer 0x42] b).ioReadByte 0xEA).2 = some 0x42 ∧
      ((b.ioWrite 0xD4 0).isNone, b.ioRead 0 0xD4, (b.ioWriteByte 0x12 0).isNone) = (true, none, true) := by
  decide +kernel

/-- A DMA register of 24 bits takes two 16-bit accesses, one of 8 bits one, each at the address that the table gives (R563):
the Source Pointer of channel 1, the Channel Status of channel 3, the Burst register. -/
theorem test_dma_registers :
    let b := events [.dma (.global .status) 0x8001]
      (outBytes [(0x198, 0x7F)] (out [(0x132, 0x3456), (0x134, 0x12), (0x106, 0x9A)] board))
    ((b.dma.channels.get 1).sourcePointer, (b.dma.channels.get 3).channelStatus, b.dma.burst) = (0x123456, 0x7F, 0x9A) ∧
      (b.ioRead 0 0x132, b.ioRead 0 0x134, b.ioRead 0 0x102, (b.ioReadByte 0x133).2) =
        (some 0x3456, some 0x12, some 0x8001, some 0x34) ∧
      (b.ioRead 0 0x10D, (board.ioWrite 0x19A 0).isNone) = (none, true) ∧
      DmaName.all.length = 49 ∧ (DmaName.channel 3 .assembly).place = (0x196, 16) := by decide +kernel

/-- The timers' registers at their addresses, of which Control can only be written (R571). -/
theorem test_timers :
    let b := out [(0xF0, 0x1234), (0xF4, 7), (0xF6, 0x36)] board
    (b.ioRead 0 0xF0, b.ioRead 0 0xF4, b.ioRead 0 0xF6, b.timers.control) = (some 0x1234, some 7, none, 0x36) ∧
      (events [.timer .schedule 6] b).ioRead 0 0xF4 = some 6 ∧ (events [.watchdog] b).nmi = 16 := by decide +kernel

/-- The master and the slaves have byte access only, those of the main array 16-bit access only, of which the low byte is the
lower boards' (R572, R585); after ICW1 to ICW4 the second address is the mask. -/
theorem test_interrupt_controllers :
    let b := outBytes [(0xC8, 0x11), (0xCA, 0x48), (0xCA, 2), (0xCA, 1), (0xCA, 0xFE)] board
    let c := b.controllers.slave0
    let t := out [(0xC6, 0x0180)] b
    (c.icw1, c.icw2, c.icw3, c.icw4, c.mask, (b.ioReadByte 0xCA).2) = (0x11, 0x48, 2, 1, 0xFE, some 0xFE) ∧
      ((b.ioWrite 0xC0 0).isNone, b.ioRead 0 0xCE, (b.ioWriteByte 0xC4 0).isNone, (b.ioReadByte 0xC6).2) =
        (true, none, true, none) ∧
      (t.controllers.mainHigh.mask, t.ioRead 0 0xC6, b.ioRead 0x8001 0xC4) = (1, some 0x0180, some 0x8001) := by
  decide +kernel

/-- Local nodes of 64 Kbytes: the disk controller's store and the 80286's read past them are the node's fault (R80, R560), and
are ignored while the node is held in reset (R620). -/
theorem test_past_local_memory :
    let b := Board.reset 3 0 0 [] defaultLocalChannels (fun _ _ => false) { Params.default with memSize := 0x10000 }
    let t := out [(0x12, 0x4000), (0x04, 0), (0x06, 0x23), (0x1A, 0)] b
    (match t.event (.diskStore 0) with | .error e => e == (1, .unpopulated 0x10000) | .ok _ => false) = true ∧
      (match t.memRead 2 0x21FFFE with | .error e => e == (0, .unpopulated 0x1FFFE) | .ok _ => false) = true ∧
      (match t.memRead 2 0x20FFFE with | .error _ => false | .ok r => r.2 == some 0) = true ∧
      (match b.memRead 2 0x21FFFE with | .error _ => false | .ok r => r.2 == none) = true := by decide +kernel

/-- Reads of the host within MOVW R1,(R2), before its second halfword is stored: they give the new low and the old high half
(R86, R96), which the host takes each once, and then finds the new one. -/
theorem test_host_read :
    after
      { (filled { start [(1, 0x11112222), (2, 0x5000)] 0 with cfg := { Params.default with ioBoard := true } }
          [(0x5000, 4, 0x33334444)]).placed [0x04, 0xC1, 0x42] with
        bus := [[], [.hostRead 0x2800, .hostRead 0x2801]] }
      (fun t => t.hostReads == [(0x2800, 0x2222), (0x2801, 0x3333)] &&
        ((t.hostTake 0x2800).toOption.bind fun r => (r.1.hostTake 0x2801).toOption.bind fun q =>
          (q.1.hostTake 0x2801).toOption.map fun p => (r.2, q.2, p.2)) == some (0x2222, 0x3333, 0x1111)) = true := by
  decide +kernel

/-- The disk controller stores its block where its address registers say, in the system RAM, while it is enabled; past
memory that is its condition Illegal Memory Access (R558, R566). -/
theorem test_disk :
    let b := out [(0x04, 0x200), (0x1A, 0)] board
    let t := events [.diskBlock ((Vector.replicate 512 0).set 1 0xBEEF), .diskStore 1] b
    (fetch 2 0x202 t).2 = some 0xBEEF ∧ (events [.diskFetch 1, .diskComplete] t).pending = [.disk] ∧
      (events [.diskComplete] (out [(0x18, 0)] t)).pending = [] ∧
      (events [.diskStore 0] (out [(0x06, 0x40)] t)).disk.has .illegalMemoryAccess = true := by decide +kernel

/-- A stopped clock keeps its digits and gives no interrupt; a single interrupt is given once (R570). -/
theorem test_clock :
    let b := out [(0x40, 2), (0x5E, 3)] board
    let due := events [.clockDue]
    (events [.clockMoves (Vector.replicate 14 1)] (out [(0x40, 4)] b)).ioRead 0 0x44 = some 0 ∧
      (events [.clockMoves (Vector.replicate 14 1)] b).ioRead 0 0x44 = some 1 ∧
      (due (out [(0x40, 1)] b)).pending = [] ∧ (due b).pending = [.realTimeClock] ∧
      (due (events [.taken .realTimeClock] (due b))).pending = [] := by decide +kernel

/-- The gray code of the eight three-bit numbers and its inverse (A3, A4), and what node 8 starts of 16 nodes (A5). -/
theorem test_gray_code :
    (List.range 8).map grayCode = [0, 1, 3, 2, 6, 7, 5, 4] ∧
      (List.range 8).map (fun x => grayInverse (grayCode x) 3) = List.range 8 ∧
      treeChildren 4 8 = [12, 10, 9] ∧ treeChildren 4 0 = [8, 4, 2, 1] := by decide

/-- The two neighbours of a processor in a ring, and the processors at places next to each other in a grid of three and of
four dimensions, are joined in the hypercube; the ID is split into the places it was made of (R603). -/
theorem test_ring_and_grids :
    ringNeighbours 3 0 = (4, 1) ∧ ringNeighbours 3 3 = (1, 2) ∧
      ((List.range 8).all fun x =>
        (neighbours 3 x).contains (ringNeighbours 3 x).1 && (neighbours 3 x).contains (ringNeighbours 3 x).2) = true ∧
      gridNode3 2 1 3 1 2 = 30 ∧ gridPlaces [2, 1, 2] 30 = [3, 1, 2] ∧
      gridNode4 2 1 2 3 1 2 1 = 62 ∧ gridPlaces [2, 1, 2, 1] 62 = [3, 1, 2, 1] ∧
      (neighbours 6 62).contains (gridNode4 2 1 2 3 1 3 1) = true := by decide


/-! ## Witnesses

For each statement with hypotheses, a state and operands that meet them together, clause by clause. -/

/-- Nothing repeats and nothing waits to be taken, and no agent moves. -/
def Calm (s : State) : Prop := s.ps.rep = 0 ∧ s.Settled

/-- The enables that `Settled` looks at are the same. -/
def SameEnables (p q : PsReg) : Prop :=
  q.eT = p.eT ∧ q.eIE = p.eIE ∧ q.eIO = p.eIO ∧ q.eII = p.eII ∧ q.eTO = p.eTO ∧ q.eCE = p.eCE

/-- Nothing waits to be taken under any flags that an instruction may leave. -/
def StaysSettled (p : PsReg) (s : State) : Prop := ∀ q, SameEnables p q → (s.withPs q).Settled

/-- The hypotheses of `Modifies`, `ModifyRaises` and `ModifySignals` hold together somewhere, whatever flags the
instruction leaves: each of the statuses there keeps the enables. -/
def ModifyMet (ts td : OpType) (ready : State → BitVec ts.bits → BitVec td.bits → Prop)
    (value : State → BitVec ts.bits → BitVec td.bits → BitVec td.bits) : Prop :=
  ∃ (src des : Ref) (s s₁ s₂ s₃ s₄ : State) (l₁ l₂ : Loc) (a : BitVec ts.bits) (b : BitVec td.bits),
    s.ps.rep = 0 ∧ evalBoth ts td .modify src des s = .ok (l₁, l₂) s₁ ∧ readLoc ts l₁ s₁ = .ok a s₂ ∧
      readLoc td l₂ s₂ = .ok b s₃ ∧ ready s a b ∧ writeLoc td l₂ (value s a b) s₃ = .ok () s₄ ∧
        s₄.bus = [] ∧ StaysSettled s.ps s₄ ∧ (src = .stk → 2048 ≤ s₄.sp.toNat)

/-- The hypotheses of `Writes`, `WriteRaises` and `WriteSignals` hold together somewhere. -/
def WriteMet (ts td : OpType) (ready : State → BitVec ts.bits → Prop)
    (value : State → BitVec ts.bits → BitVec td.bits) : Prop :=
  ∃ (src des : Ref) (s s₁ s₂ s₄ : State) (l₁ l₂ : Loc) (a : BitVec ts.bits),
    s.ps.rep = 0 ∧ evalBoth ts td .write src des s = .ok (l₁, l₂) s₁ ∧ readLoc ts l₁ s₁ = .ok a s₂ ∧ ready s a ∧
      writeLoc td l₂ (value s a) s₂ = .ok () s₄ ∧ s₄.bus = [] ∧ StaysSettled s.ps s₄ ∧
        (src = .stk ∨ des = .stk → 2048 ≤ s₄.sp.toNat)

/-- The hypotheses of `Compares` hold together somewhere. -/
def CompareMet (t : OpType) : Prop :=
  ∃ (src des : Ref) (s s₁ s₂ s₃ : State) (l₁ l₂ : Loc) (a b : BitVec t.bits),
    s.ps.rep = 0 ∧ evalBoth t t .look src des s = .ok (l₁, l₂) s₁ ∧ readLoc t l₁ s₁ = .ok a s₂ ∧
      readLoc t l₂ s₂ = .ok b s₃ ∧ StaysSettled s.ps s₃ ∧ (src = .stk → 2048 ≤ s₃.sp.toNat)

theorem Calm.stays {s t : State} (h : Calm s) (htr : t.tr = s.tr) (hce : t.ceLatch = s.ceLatch) (hue : t.ueLatch = s.ueLatch)
    (hoe : t.oe = s.oe) (hie : t.ie = s.ie) (hin : t.inp = s.inp) (hout : t.out = s.out) (hc : t.cfg = s.cfg)
    (hb : t.bus = s.bus) : StaysSettled s.ps t := by
  intro q hq
  refine ⟨hb.trans h.2.1, hq.1.trans h.2.2.1, hue.trans h.2.2.2.1, ?_⟩
  have := h.2.2.2.2
  simp only [asyncNumber, asyncConditions, outputReady, inputReady, inputError, State.withPs, State.inPort, State.outPort,
    htr, hce, hoe, hie, hin, hout, hc, hq.2.1, hq.2.2.1, hq.2.2.2.1, hq.2.2.2.2.1, hq.2.2.2.2.2] at this ⊢
  exact this

theorem Calm.stays_self {s : State} (h : Calm s) : StaysSettled s.ps s := h.stays rfl rfl rfl rfl rfl rfl rfl rfl rfl

theorem Calm.stays_writeReg {s : State} (h : Calm s) (t : OpType) (n : Fin 16) (v : BitVec t.bits) :
    StaysSettled s.ps (writeReg t n v s) := by
  cases t <;> exact h.stays rfl rfl rfl rfl rfl rfl rfl rfl rfl

theorem writeReg_bus (t : OpType) (n : Fin 16) (v : BitVec t.bits) (s : State) : (writeReg t n v s).bus = s.bus := by
  cases t <;> rfl

theorem staleIn_none {s : State} (h : s.fetch = ⟨[], [], []⟩) (a n : Nat) : s.staleIn a n = none := by
  simp [State.staleIn, State.fetchFresh, h]

theorem evalBoth_regs {ts td : OpType} {role : Role} {s : State} (h : s.fetch = ⟨[], [], []⟩) :
    evalBoth ts td role (.reg 2) (.reg 4) s = .ok (.reg 2, .reg 4) s := by
  have h₂ : evalSecond role (.value ts) (.value td) s.sp (.reg 2) (.reg 4) s = .ok (.reg 4) s :=
    evalSecond_eq_ok.2 ⟨staleIn_none h _ _, rfl⟩
  unfold evalBoth
  rw [show evalRef .src ts.len s.sp (afterSpec1 s.pc) (.reg 2) s = .ok (.reg 2) s from rfl, Flow.bind_of_ok _ rfl, h₂,
    Flow.bind_of_ok _ rfl]

/-- R2 and R4 as the operands of a calm state. -/
theorem modifyMet_regs {ts td : OpType} {ready : State → BitVec ts.bits → BitVec td.bits → Prop}
    {value : State → BitVec ts.bits → BitVec td.bits → BitVec td.bits} {s : State} (hq : Calm s)
    (h : ready s (readReg ts 2 s) (readReg td 4 s)) (hf : s.fetch = ⟨[], [], []⟩ := by rfl) :
    ModifyMet ts td ready value :=
  ⟨.reg 2, .reg 4, s, s, s, s, _, .reg 2, .reg 4, _, _, hq.1, evalBoth_regs hf, rfl, rfl, h, rfl,
    (writeReg_bus ..).trans hq.2.1, hq.stays_writeReg _ _ _, by simp⟩

theorem writeMet_regs {ts td : OpType} {ready : State → BitVec ts.bits → Prop}
    {value : State → BitVec ts.bits → BitVec td.bits} {s : State} (hq : Calm s) (h : ready s (readReg ts 2 s))
    (hf : s.fetch = ⟨[], [], []⟩ := by rfl) : WriteMet ts td ready value :=
  ⟨.reg 2, .reg 4, s, s, s, _, .reg 2, .reg 4, _, hq.1, evalBoth_regs hf, rfl, h, rfl, (writeReg_bus ..).trans hq.2.1,
    hq.stays_writeReg _ _ _, by simp⟩

theorem compareMet_regs (t : OpType) {s : State} (hq : Calm s) (hf : s.fetch = ⟨[], [], []⟩ := by rfl) :
    CompareMet t :=
  ⟨.reg 2, .reg 4, s, s, s, s, .reg 2, .reg 4, _, _, hq.1, evalBoth_regs hf, rfl, rfl, hq.stays_self, by simp⟩

/-- Whether nothing waits to be taken, as a test. -/
def settled (s : State) : Bool := s.bus.isEmpty && !s.ps.eT && s.ueLatch.isNone && (asyncNumber s).isNone

theorem settled_of {s : State} (h : settled s = true) : s.Settled := by
  simp only [settled, Bool.and_eq_true, Bool.not_eq_true', Option.isNone_iff_eq_none, List.isEmpty_iff] at h
  exact ⟨h.1.1.1, h.1.1.2, h.1.2, h.2⟩

theorem quiet_of {s : State} (h : (decide (s.ps.rep = 0) && settled s) = true) : Calm s := by
  rw [Bool.and_eq_true, decide_eq_true_eq] at h
  exact ⟨h.1, settled_of h.2⟩

/-- The least number of a width, and its operand type. -/
def least : List (OpType × Word) := [(.b, 0x80), (.h, 0x8000), (.w, 0x80000000)]

theorem witness_moves : ∀ t ∈ [OpType.b, .h, .w, .r, .l], WriteMet t t (fun _ _ => True) (fun _ a => a) :=
  fun _ _ => writeMet_regs (s := start [(2, 5)] 0) (quiet_of (by decide)) trivial

theorem witness_additions :
    (∀ t ∈ [OpType.b, .h, .w],
      ModifyMet t t (fun s a b => (outOfRange t.bits (a.toInt + b.toInt) && s.ivEnabled) = false) (fun _ a b => a + b)) ∧
    ∀ t ∈ [OpType.b, .h, .w],
      ModifyMet t t (fun s a b => (outOfRange t.bits (a.toInt + b.toInt + s.ps.fC.toNat) && s.ivEnabled) = false)
        (fun s a b => a + b + BitVec.ofNat _ s.ps.fC.toNat) := by
  constructor <;> intro t ht <;> simp only [List.mem_cons, List.not_mem_nil, or_false] at ht <;>
    rcases ht with rfl | rfl | rfl
  all_goals exact modifyMet_regs (s := start [(2, 0x7D), (4, 1)] 0x108001) (quiet_of (by decide)) (by decide)

theorem witness_subtractions :
    (∀ t ∈ [OpType.b, .h, .w],
      ModifyMet t t (fun s a b => (outOfRange t.bits (b.toInt - a.toInt) && s.ivEnabled) = false) (fun _ a b => b - a)) ∧
    (∀ t ∈ [OpType.b, .h, .w],
      ModifyMet t t (fun s a b => (outOfRange t.bits (b.toInt - a.toInt - s.ps.fC.toNat) && s.ivEnabled) = false)
        (fun s a b => b - a - BitVec.ofNat _ s.ps.fC.toNat)) ∧
    (∀ t ∈ [OpType.b, .h, .w],
      ModifyMet t t (fun s a b => (outOfRange t.bits (a.toInt - b.toInt) && s.ivEnabled) = false) (fun _ a b => a - b)) ∧
    ∀ t ∈ [OpType.b, .h, .w],
      WriteMet t t (fun s a => (outOfRange t.bits (-a.toInt) && s.ivEnabled) = false) (fun _ a => -a) := by
  refine ⟨?_, ?_, ?_, ?_⟩ <;> intro t ht <;> simp only [List.mem_cons, List.not_mem_nil, or_false] at ht <;>
    rcases ht with rfl | rfl | rfl
  all_goals first
    | exact modifyMet_regs (s := start [(2, 0x7F), (4, 0)] 0x108001) (quiet_of (by decide)) (by decide)
    | exact writeMet_regs (s := start [(2, 0x7F)] 0x108000) (quiet_of (by decide)) (by decide)

theorem witness_productsQuotients :
    (∀ t ∈ [OpType.b, .h, .w],
      ModifyMet t t (fun s a b => (outOfRange t.bits (a.toInt * b.toInt) && s.ivEnabled) = false) (fun _ a b => a * b)) ∧
    (∀ t ∈ [OpType.b, .h, .w],
      ModifyMet t t (fun s a b => a ≠ 0 ∧ (outOfRange t.bits (b.toInt.tdiv a.toInt) && s.ivEnabled) = false)
        (fun _ a b => b.sdiv a)) ∧
    (∀ t ∈ [OpType.b, .h, .w],
      ModifyMet t t (fun s a b => b ≠ 0 ∧ (outOfRange t.bits (a.toInt.tdiv b.toInt) && s.ivEnabled) = false)
        (fun _ a b => a.sdiv b)) ∧
    ∀ t ∈ [OpType.b, .h, .w], ModifyMet t t (fun _ a _ => a ≠ 0) (fun _ a b => b.srem a) := by
  refine ⟨?_, ?_, ?_, ?_⟩ <;> intro t ht <;> simp only [List.mem_cons, List.not_mem_nil, or_false] at ht <;>
    rcases ht with rfl | rfl | rfl
  all_goals exact modifyMet_regs (s := start [(2, 1), (4, 0x7F)] 0x108000) (quiet_of (by decide)) (by decide)

theorem witness_integerZeroDivide :
    (∀ t ∈ [OpType.b, .h, .w], ModifyMet t t (fun _ a _ => a = 0) (fun _ _ b => b)) ∧
      ∀ t ∈ [OpType.b, .h, .w], ModifyMet t t (fun _ _ b => b = 0) (fun _ _ b => b) := by
  constructor <;> intro t ht <;> simp only [List.mem_cons, List.not_mem_nil, or_false] at ht <;>
    rcases ht with rfl | rfl | rfl
  all_goals first
    | exact modifyMet_regs (s := start [(4, 7)] 0) (quiet_of (by decide)) (by decide)
    | exact modifyMet_regs (s := start [(2, 7)] 0) (quiet_of (by decide)) (by decide)

/-- One past the least or the greatest number: ADD, ADC, SUB, SBB, SBR, NEG, MUL, DIV, DVR, SFA, CVWB, CVWH, CVRW and CVLW,
and an infinity. -/
theorem witness_integerOverflow :
    (∀ x ∈ least, ModifyMet x.1 x.1
      (fun s a b => outOfRange x.1.bits (a.toInt + b.toInt) = true ∧ s.ivEnabled = true) (fun _ a b => a + b)) ∧
    (∀ x ∈ least, ModifyMet x.1 x.1
      (fun s a b => outOfRange x.1.bits (a.toInt + b.toInt + s.ps.fC.toNat) = true ∧ s.ivEnabled = true)
      (fun s a b => a + b + BitVec.ofNat _ s.ps.fC.toNat)) ∧
    (∀ x ∈ least, ModifyMet x.1 x.1
      (fun s a b => outOfRange x.1.bits (b.toInt - a.toInt) = true ∧ s.ivEnabled = true) (fun _ a b => b - a)) ∧
    (∀ x ∈ least, ModifyMet x.1 x.1
      (fun s a b => outOfRange x.1.bits (b.toInt - a.toInt - s.ps.fC.toNat) = true ∧ s.ivEnabled = true)
      (fun s a b => b - a - BitVec.ofNat _ s.ps.fC.toNat)) ∧
    (∀ x ∈ least, ModifyMet x.1 x.1
      (fun s a b => outOfRange x.1.bits (a.toInt - b.toInt) = true ∧ s.ivEnabled = true) (fun _ a b => a - b)) ∧
    (∀ x ∈ least, WriteMet x.1 x.1
      (fun s a => outOfRange x.1.bits (-a.toInt) = true ∧ s.ivEnabled = true) (fun _ a => -a)) ∧
    (∀ x ∈ least, ModifyMet x.1 x.1
      (fun s a b => outOfRange x.1.bits (a.toInt * b.toInt) = true ∧ s.ivEnabled = true) (fun _ a b => a * b)) ∧
    (∀ x ∈ least, ModifyMet x.1 x.1
      (fun s a b => a ≠ 0 ∧ outOfRange x.1.bits (b.toInt.tdiv a.toInt) = true ∧ s.ivEnabled = true)
      (fun _ a b => b.sdiv a)) ∧
    (∀ x ∈ least, ModifyMet x.1 x.1
      (fun s a b => b ≠ 0 ∧ outOfRange x.1.bits (a.toInt.tdiv b.toInt) = true ∧ s.ivEnabled = true)
      (fun _ a b => a.sdiv b)) ∧
    (∀ x ∈ least, ModifyMet .b x.1
      (fun s a b => 0 < a.toInt ∧ outOfRange x.1.bits (b.toInt * 2 ^ a.toInt.toNat) = true ∧ s.ivEnabled = true)
      (fun _ a b => b <<< a.toInt.toNat)) ∧
    (∀ x ∈ [(OpType.b, 0x80#32), (.h, 0x8000)], WriteMet .w x.1
      (fun s a => outOfRange x.1.bits a.toInt = true ∧ s.ivEnabled = true) (fun _ a => a.setWidth _)) ∧
    (∃ (sg : Bool) (m : Nat) (e : Int) (rc : BitVec 2), WriteMet .r .w
      (fun s a => Fmt.real.value a.toNat = .fin sg m e ∧ s.ps.rc = rc ∧
        outOfRange 32 (roundToInt rc sg m e).value = true ∧ s.ivEnabled = true)
      (fun _ _ => BitVec.ofInt 32 (roundToInt rc sg m e).value)) ∧
    (∃ (sg : Bool) (m : Nat) (e : Int) (rc : BitVec 2), WriteMet .l .w
      (fun s a => Fmt.long.value a.toNat = .fin sg m e ∧ s.ps.rc = rc ∧
        outOfRange 32 (roundToInt rc sg m e).value = true ∧ s.ivEnabled = true)
      (fun _ _ => BitVec.ofInt 32 (roundToInt rc sg m e).value)) ∧
    ∃ (src des : Ref) (s s₁ s₂ s₄ : State) (l₁ l₂ : Loc) (a : Word) (sg : Bool), s.ps.rep = 0 ∧
      evalBoth .r .w .write src des s = .ok (l₁, l₂) s₁ ∧ readLoc .r l₁ s₁ = .ok a s₂ ∧
        Fmt.real.value a.toNat = .inf sg ∧ s.ivEnabled = true ∧
          writeLoc .w l₂ (s.freeNext 32) (s₂.drew 1) = .ok () s₄ ∧ s₄.bus = [] ∧
            (src = .stk ∨ des = .stk → 2048 ≤ s₄.sp.toNat) := by
  refine ⟨?_, ?_, ?_, ?_, ?_, ?_, ?_, ?_, ?_, ?_, ?_,
    ⟨false, 8388608, 8, 0, writeMet_regs (s := start [(2, 0x4F000000)] 0x108000) (quiet_of (by decide)) (by decide +kernel)⟩,
    ⟨true, 4503599629467648, -21, 0, writeMet_regs (s := start [(2, 0x00200000), (3, 0xC1E00000)] 0x108000)
      (quiet_of (by decide)) (by decide +kernel)⟩,
    ⟨.reg 2, .reg 4, start [(2, 0xFF800000)] 0x108000, _, _, _, _, .reg 4, 0xFF800000, true, by decide, rfl, rfl,
      by decide +kernel, by decide, rfl, rfl, by simp⟩⟩ <;> intro x hx <;>
    simp only [least, List.mem_cons, List.not_mem_nil, or_false] at hx <;>
    rcases hx with rfl | rfl | rfl
  all_goals first
    | exact modifyMet_regs (s := start [(2, 0xFFFFFFFF), (4, 0x80)] 0x108000) (quiet_of (by decide)) (by decide)
    | exact modifyMet_regs (s := start [(2, 0xFFFFFFFF), (4, 0x8000)] 0x108000) (quiet_of (by decide)) (by decide)
    | exact modifyMet_regs (s := start [(2, 0xFFFFFFFF), (4, 0x80000000)] 0x108000) (quiet_of (by decide)) (by decide)
    | exact modifyMet_regs (s := start [(2, 1), (4, 0x80)] 0x108000) (quiet_of (by decide)) (by decide)
    | exact modifyMet_regs (s := start [(2, 1), (4, 0x8000)] 0x108000) (quiet_of (by decide)) (by decide)
    | exact modifyMet_regs (s := start [(2, 1), (4, 0x80000000)] 0x108000) (quiet_of (by decide)) (by decide)
    | exact modifyMet_regs (s := start [(2, 0x80), (4, 1)] 0x108000) (quiet_of (by decide)) (by decide)
    | exact modifyMet_regs (s := start [(2, 0x8000), (4, 1)] 0x108000) (quiet_of (by decide)) (by decide)
    | exact modifyMet_regs (s := start [(2, 0x80000000), (4, 1)] 0x108000) (quiet_of (by decide)) (by decide)
    | exact modifyMet_regs (s := start [(2, 0x80), (4, 0xFF)] 0x108000) (quiet_of (by decide)) (by decide)
    | exact modifyMet_regs (s := start [(2, 0x8000), (4, 0xFFFF)] 0x108000) (quiet_of (by decide)) (by decide)
    | exact modifyMet_regs (s := start [(2, 0x80000000), (4, 0xFFFFFFFF)] 0x108000) (quiet_of (by decide)) (by decide)
    | exact writeMet_regs (s := start [(2, 0x80)] 0x108000) (quiet_of (by decide)) (by decide)
    | exact writeMet_regs (s := start [(2, 0x8000)] 0x108000) (quiet_of (by decide)) (by decide)
    | exact writeMet_regs (s := start [(2, 0x80000000)] 0x108000) (quiet_of (by decide)) (by decide)

theorem witness_integerCompares : ∀ t ∈ [OpType.b, .h, .w], CompareMet t :=
  fun t _ => compareMet_regs t (s := start [] 0) (quiet_of (by decide))

/-- 99 + 99 + 1 and 0 - 99 - 1 in digits; AA and FF, which are none. -/
theorem witness_decimals :
    ModifyMet .b .b (fun _ a b => isDecimal a ∧ isDecimal b)
        (fun s a b => ofDecimal ((decimal a + decimal b + s.ps.fC.toNat) % 100)) ∧
      ModifyMet .b .b (fun _ a b => isDecimal a ∧ isDecimal b)
        (fun s a b => ofDecimal (((decimal b : Int) - decimal a - s.ps.fC.toNat) % 100).toNat) ∧
      (∃ (lo hi : Nat) (c₁ c₂ : Bool) (v : Byte), ModifyMet .b .b
        (fun s a b =>
          c₁ = decide (9 < a.toNat % 16 + b.toNat % 16 + s.ps.fC.toNat) ∧
            lo = a.toNat % 16 + b.toNat % 16 + s.ps.fC.toNat - (if c₁ then 10 else 0) ∧
            c₂ = decide (9 < a.toNat / 16 + b.toNat / 16 + c₁.toNat) ∧
            hi = a.toNat / 16 + b.toNat / 16 + c₁.toNat - (if c₂ then 10 else 0) ∧
            v = BitVec.ofNat 8 (hi % 16 * 16 + lo % 16)) (fun _ _ _ => v)) ∧
      ∃ (lo hi : Int) (b₁ b₂ : Bool) (v : Byte), ModifyMet .b .b
        (fun s a b =>
          b₁ = decide ((b.toNat % 16 : Nat) - (a.toNat % 16 : Nat) - (s.ps.fC.toNat : Int) < 0) ∧
            lo = (b.toNat % 16 : Nat) - (a.toNat % 16 : Nat) - (s.ps.fC.toNat : Int) + (if b₁ then 10 else 0) ∧
            b₂ = decide ((b.toNat / 16 : Nat) - (a.toNat / 16 : Nat) - (b₁.toNat : Int) < 0) ∧
            hi = (b.toNat / 16 : Nat) - (a.toNat / 16 : Nat) - (b₁.toNat : Int) + (if b₂ then 10 else 0) ∧
            v = BitVec.ofInt 8 (hi % 16 * 16 + lo % 16)) (fun _ _ _ => v) := by
  refine ⟨modifyMet_regs (s := start [(2, 0x99), (4, 0x99)] 1) (quiet_of (by decide)) ⟨by unfold isDecimal; decide, by unfold isDecimal; decide⟩,
    modifyMet_regs (s := start [(2, 0x99), (4, 0)] 1) (quiet_of (by decide)) ⟨by unfold isDecimal; decide, by unfold isDecimal; decide⟩,
    ⟨15, 16, true, true, 0x0F, modifyMet_regs (s := start [(2, 0xAA), (4, 0xFF)] 0) (quiet_of (by decide)) (by decide)⟩,
    ⟨5, 4, true, true, 0x45, modifyMet_regs (s := start [(2, 0xFF), (4, 0xAA)] 0) (quiet_of (by decide)) (by decide)⟩⟩

theorem witness_integerConversions :
    (∀ t ∈ [OpType.b, .h], WriteMet t .w (fun _ _ => True) (fun _ a => a.signExtend 32)) ∧
      ∀ t ∈ [OpType.b, .h], WriteMet .w t (fun s a => (outOfRange t.bits a.toInt && s.ivEnabled) = false)
        (fun _ a => a.setWidth _) := by
  refine ⟨fun _ _ => writeMet_regs (s := start [(2, 0x80)] 0) (quiet_of (by decide)) trivial, ?_⟩
  intro t ht
  simp only [List.mem_cons, List.not_mem_nil, or_false] at ht
  rcases ht with rfl | rfl
  all_goals exact writeMet_regs (s := start [(2, 0x7F)] 0x108000) (quiet_of (by decide)) (by decide)

theorem witness_logicals :
    ∀ t ∈ [OpType.b, .h, .w], CompareMet t ∧ ModifyMet t t (fun _ _ _ => True) (fun _ a b => a &&& b) ∧
      WriteMet t t (fun _ _ => True) (fun _ a => ~~~a) :=
  fun t _ => ⟨compareMet_regs t (s := start [] 0) (quiet_of (by decide)),
    modifyMet_regs (s := start [] 0) (quiet_of (by decide)) trivial,
    writeMet_regs (s := start [] 0) (quiet_of (by decide)) trivial⟩

/-- Counts of no place, one place to either side, and the width. -/
theorem witness_shifts :
    (∀ t ∈ [OpType.b, .h, .w], ModifyMet .b t (fun _ _ _ => True)
      (fun _ a b => if 0 ≤ a.toInt then b <<< a.toInt.toNat else b >>> (-a.toInt).toNat)) ∧
    ∀ t ∈ [OpType.b, .h, .w], ∀ k ∈ [0, 1, -1, 32],
      ModifyMet .b t
        (fun s a b => a.toInt = k ∧
          (decide (0 < a.toInt) && outOfRange t.bits (b.toInt * 2 ^ a.toInt.toNat) && s.ivEnabled) = false)
        (fun _ a b => if 0 ≤ a.toInt then b <<< a.toInt.toNat else BitVec.ofInt _ (b.toInt / 2 ^ (-a.toInt).toNat)) := by
  refine ⟨fun _ _ => modifyMet_regs (s := start [(2, 1), (4, 1)] 0) (quiet_of (by decide)) trivial, ?_⟩
  intro t ht k hk
  simp only [List.mem_cons, List.not_mem_nil, or_false] at ht hk
  rcases ht with rfl | rfl | rfl <;> rcases hk with rfl | rfl | rfl | rfl
  all_goals first
    | exact modifyMet_regs (s := start [(2, 0), (4, 0x3F)] 0x108000) (quiet_of (by decide)) (by decide)
    | exact modifyMet_regs (s := start [(2, 1), (4, 0x3F)] 0x108000) (quiet_of (by decide)) (by decide)
    | exact modifyMet_regs (s := start [(2, 0xFF), (4, 0x3F)] 0x108000) (quiet_of (by decide)) (by decide)
    | exact modifyMet_regs (s := start [(2, 32), (4, 0)] 0x108000) (quiet_of (by decide)) (by decide)

/-- One place to the right, and 0 and -1 under the default parameter. -/
theorem witness_rotates :
    ∀ x ∈ least, ∀ k ∈ [(1 : Int), 0], ∃ v : BitVec x.1.bits,
      ModifyMet .b x.1
        (fun s a b =>
          k = (if s.cfg.rot = .positiveRight then a.toInt else -a.toInt) ∧
            ∀ i : Nat, i < x.1.bits → v.getLsbD i = b.getLsbD (((i : Int) + k) % (x.1.bits : Int)).toNat)
        (fun _ _ _ => v) := by
  intro x hx k hk
  simp only [least, List.mem_cons, List.not_mem_nil, or_false] at hx hk
  rcases hx with rfl | rfl | rfl <;> rcases hk with rfl | rfl
  · exact ⟨0x80, modifyMet_regs (s := start [(2, 1), (4, 1)] 0) (quiet_of (by decide)) (by decide)⟩
  · exact ⟨1, modifyMet_regs (s := start [(2, 0), (4, 1)] 0) (quiet_of (by decide)) (by decide)⟩
  · exact ⟨0x8000, modifyMet_regs (s := start [(2, 1), (4, 1)] 0) (quiet_of (by decide)) (by decide)⟩
  · exact ⟨1, modifyMet_regs (s := start [(2, 0), (4, 1)] 0) (quiet_of (by decide)) (by decide)⟩
  · exact ⟨0x80000000, modifyMet_regs (s := start [(2, 1), (4, 1)] 0) (quiet_of (by decide)) (by decide +kernel)⟩
  · exact ⟨1, modifyMet_regs (s := start [(2, 0), (4, 1)] 0) (quiet_of (by decide)) (by decide +kernel)⟩

/-- The lowest and the highest bit, and no bit. -/
theorem witness_findFirstOne :
    ∀ x ∈ least, WriteMet x.1 .b (fun _ a => a.getLsbD 0 = true ∧ ∀ j, j < 0 → a.getLsbD j = false) (fun _ _ => 0) ∧
      WriteMet x.1 .b
        (fun _ a => a.getLsbD (x.1.bits - 1) = true ∧ ∀ j, j < x.1.bits - 1 → a.getLsbD j = false)
        (fun _ _ => BitVec.ofNat 8 (x.1.bits - 1)) ∧
      WriteMet x.1 .b (fun _ a => a = 0) (fun _ _ => BitVec.ofNat 8 x.1.bits) := by
  intro x hx
  simp only [least, List.mem_cons, List.not_mem_nil, or_false] at hx
  rcases hx with rfl | rfl | rfl
  · exact ⟨writeMet_regs (s := start [(2, 1)] 0) (quiet_of (by decide)) (by decide),
      writeMet_regs (s := start [(2, 0x80)] 0) (quiet_of (by decide)) (by decide),
      writeMet_regs (s := start [] 0) (quiet_of (by decide)) (by decide)⟩
  · exact ⟨writeMet_regs (s := start [(2, 1)] 0) (quiet_of (by decide)) (by decide),
      writeMet_regs (s := start [(2, 0x8000)] 0) (quiet_of (by decide)) (by decide),
      writeMet_regs (s := start [] 0) (quiet_of (by decide)) (by decide)⟩
  · exact ⟨writeMet_regs (s := start [(2, 1)] 0) (quiet_of (by decide)) (by decide),
      writeMet_regs (s := start [(2, 0x80000000)] 0) (quiet_of (by decide)) (by decide +kernel),
      writeMet_regs (s := start [] 0) (quiet_of (by decide)) (by decide)⟩


/-- A state whose operands R2 and R4 are 2.0 and 1.0 of a real type. -/
def reals (t : OpType) (ps : Word) : State :=
  match t with
  | .l => start [(3, 0x40000000), (5, 0x3FF00000)] ps
  | _ => start [(2, 0x40000000), (4, 0x3F800000)] ps

theorem witness_realSigns :
    ∀ t ∈ [OpType.r, .l], WriteMet t t (fun _ a => (fmtOf t).isNan a.toNat = false) (fun _ a => a ^^^ signBit _) ∧
      ModifyMet t t (fun _ a b => (fmtOf t).isNan a.toNat = false ∧ (fmtOf t).isNan b.toNat = false)
        (fun _ a b => (b &&& ~~~(signBit _)) ||| (a &&& signBit _)) := by
  intro t ht
  simp only [List.mem_cons, List.not_mem_nil, or_false] at ht
  rcases ht with rfl | rfl
  · exact ⟨writeMet_regs (s := reals .r 0) (quiet_of (by decide)) (by decide),
      modifyMet_regs (s := reals .r 0) (quiet_of (by decide)) (by decide)⟩
  · exact ⟨writeMet_regs (s := reals .l 0) (quiet_of (by decide)) (by decide),
      modifyMet_regs (s := reals .l 0) (quiet_of (by decide)) (by decide)⟩

/-- Every real operation delivers on 2.0 and 1.0. -/
theorem witness_realArithmetic :
    ∀ e ∈ realOperations, ∃ (v : BitVec e.1.bits) (ix g r u : Bool),
      ModifyMet e.1 e.1
        (fun s a b => realOutcome e s a b = .store (some v.toNat) ix false false g r u ∧ (ix && s.iixEnabled) = false)
        (fun _ _ _ => v) := by
  intro e he
  simp only [realOperations, List.mem_cons, List.not_mem_nil, or_false] at he
  rcases he with rfl | rfl | rfl | rfl | rfl | rfl | rfl | rfl | rfl | rfl | rfl | rfl
  · exact ⟨0x40400000, false, false, false, false, modifyMet_regs (s := reals .r 0) (quiet_of (by decide)) (by decide +kernel)⟩
  · exact ⟨0x4008000000000000, false, false, false, false,
      modifyMet_regs (s := reals .l 0) (quiet_of (by decide)) (by decide +kernel)⟩
  · exact ⟨0xBF800000, false, false, false, false, modifyMet_regs (s := reals .r 0) (quiet_of (by decide)) (by decide +kernel)⟩
  · exact ⟨0xBFF0000000000000, false, false, false, false,
      modifyMet_regs (s := reals .l 0) (quiet_of (by decide)) (by decide +kernel)⟩
  · exact ⟨0x3F800000, false, false, false, false, modifyMet_regs (s := reals .r 0) (quiet_of (by decide)) (by decide +kernel)⟩
  · exact ⟨0x3FF0000000000000, false, false, false, false,
      modifyMet_regs (s := reals .l 0) (quiet_of (by decide)) (by decide +kernel)⟩
  · exact ⟨0x40000000, false, false, false, false, modifyMet_regs (s := reals .r 0) (quiet_of (by decide)) (by decide +kernel)⟩
  · exact ⟨0x4000000000000000, false, false, false, false,
      modifyMet_regs (s := reals .l 0) (quiet_of (by decide)) (by decide +kernel)⟩
  · exact ⟨0x3F000000, false, false, false, false, modifyMet_regs (s := reals .r 0) (quiet_of (by decide)) (by decide +kernel)⟩
  · exact ⟨0x3FE0000000000000, false, false, false, false,
      modifyMet_regs (s := reals .l 0) (quiet_of (by decide)) (by decide +kernel)⟩
  · exact ⟨0x40000000, false, false, false, false, modifyMet_regs (s := reals .r 0) (quiet_of (by decide)) (by decide +kernel)⟩
  · exact ⟨0x4000000000000000, false, false, false, false,
      modifyMet_regs (s := reals .l 0) (quiet_of (by decide)) (by decide +kernel)⟩

/-- The patterns of -1, of both zeros, of minus infinity and of the smallest number of each format: none is a NaN, and the
sign and the zero test that each shows. -/
theorem witness_realSignTests :
    ∀ x ∈ [(Fmt.real, 0xBF800000, true, false), (.real, 0x80000000, false, true), (.real, 0, false, true),
        (.real, 0xFF800000, true, false), (.real, 1, false, false), (.long, 0x8000000000000000, false, true),
        (.long, 0x8000000000000001, true, false)],
      x.1.isNan x.2.1 = false ∧
        (x.2.2.1 = true ↔ x.1.value x.2.1 = .inf true ∨
          ∃ sg m e, x.1.value x.2.1 = .fin sg m e ∧ (FVal.fin sg m e).rat < 0) ∧
        (x.2.2.2 = true ↔ ∃ sg m e, x.1.value x.2.1 = .fin sg m e ∧ (FVal.fin sg m e).rat = 0) := by
  intro x hx
  simp only [List.mem_cons, List.not_mem_nil, or_false] at hx
  rcases hx with rfl | rfl | rfl | rfl | rfl | rfl | rfl <;> refine ⟨by decide, ?_, ?_⟩ <;>
    simp [Fmt.value, Fmt.expo, Fmt.frac, Fmt.sign, Fmt.emax, Fmt.bias, Fmt.real, Fmt.long, FVal.rat]

/-- The real multiplication among `realOperations`. -/
abbrev mulReal : OpType × (Ref → Ref → Instr) × (Fmt → Nat → BitVec 2 → FVal → FVal → FpOut) :=
  (.r, .mulr, fun f w rc x y => f.mul w rc x y)

/-- The real division among `realOperations`. -/
abbrev divReal : OpType × (Ref → Ref → Instr) × (Fmt → Nat → BitVec 2 → FVal → FVal → FpOut) :=
  (.r, .divr, fun f w rc x y => f.div w rc y x)

/-- Underflow (B4.11), overflow (B4.9), an enabled inexact quotient (B4.16), an overflow of CVLR, an enabled inexact
root, CVWR of 2^24 + 1, CVRW of 0.5, CVLW of -0.5 and the underflow of REM. -/
theorem witness_realSignals :
    mulReal ∈ realOperations ∧ divReal ∈ realOperations ∧
    (∃ (v : Word) (g r u : Bool), ModifyMet .r .r
      (fun s a b => realOutcome mulReal s a b = .store (some v.toNat) false true false g r u) (fun _ _ _ => v)) ∧
    (∃ (v : Word) (g r u : Bool), ModifyMet .r .r
      (fun s a b => realOutcome mulReal s a b = .store (some v.toNat) false false true g r u) (fun _ _ _ => v)) ∧
    (∃ (v : Word) (g r u : Bool), ModifyMet .r .r
      (fun s a b => realOutcome divReal s a b = .store (some v.toNat) true false false g r u ∧ s.iixEnabled = true)
      (fun _ _ _ => v)) ∧
    (∃ (v : Word) (g r u : Bool), WriteMet .l .r
      (fun s a => Fmt.real.deliverValue (Fmt.real.wrap s.cfg) s.ps.rc (Fmt.long.value a.toNat) =
        .store (some v.toNat) false false true g r u) (fun _ _ => v)) ∧
    (∃ (v : Word) (g r u : Bool), WriteMet .r .r
      (fun s a => Fmt.real.sqrt s.ps.rc (Fmt.real.value a.toNat) = .store (some v.toNat) true false false g r u ∧
        s.iixEnabled = true) (fun _ _ => v)) ∧
    (∃ (v : Word) (g r u : Bool), WriteMet .w .r
      (fun s a => Fmt.real.ofInt s.ps.rc a.toInt = .store (some v.toNat) true false false g r u ∧
        s.iixEnabled = true) (fun _ _ => v)) ∧
    (∃ (sg : Bool) (m : Nat) (e : Int) (rc : BitVec 2), WriteMet .r .w
      (fun s a => Fmt.real.value a.toNat = .fin sg m e ∧ s.ps.rc = rc ∧
        (outOfRange 32 (roundToInt rc sg m e).value && s.ivEnabled) = false ∧
        ((roundToInt rc sg m e).guard || (roundToInt rc sg m e).rest) = true ∧ s.iixEnabled = true)
      (fun _ _ => BitVec.ofInt 32 (roundToInt rc sg m e).value)) ∧
    (∃ (sg : Bool) (m : Nat) (e : Int) (rc : BitVec 2), WriteMet .l .w
      (fun s a => Fmt.long.value a.toNat = .fin sg m e ∧ s.ps.rc = rc ∧
        (outOfRange 32 (roundToInt rc sg m e).value && s.ivEnabled) = false ∧
        ((roundToInt rc sg m e).guard || (roundToInt rc sg m e).rest) = true ∧ s.iixEnabled = true)
      (fun _ _ => BitVec.ofInt 32 (roundToInt rc sg m e).value)) ∧
    ∃ (v : Word) (ix g r u : Bool) (x : FVal), ModifyMet .r .r
      (fun s a b =>
        Fmt.real.rem (Fmt.real.wrap s.cfg) s.ps.rc (Fmt.real.value b.toNat) (Fmt.real.value a.toNat) =
            .store (some v.toNat) ix true false g r u ∧
          remValue (Fmt.real.value b.toNat) (Fmt.real.value a.toNat) = some x) (fun _ _ _ => v) := by
  refine ⟨.tail _ (.tail _ (.tail _ (.tail _ (.tail _ (.tail _ (.head _)))))),
    .tail _ (.tail _ (.tail _ (.tail _ (.tail _ (.tail _ (.tail _ (.tail _ (.head _)))))))),
    ⟨0x1B000000, false, false, false, ?_⟩, ⟨0x40000000, false, false, false, ?_⟩, ⟨0x3EAAAAAB, true, true, true, ?_⟩,
    ⟨0x40000000, false, false, false, ?_⟩, ⟨0x3FB504F3, false, true, false, ?_⟩,
    ⟨0x4B800000, true, false, false, ?_⟩, ⟨false, 8388608, -24, 0, ?_⟩, ⟨true, 4503599627370496, -53, 0, ?_⟩,
    ⟨0x3F800000, false, false, false, false, .fin false 4194304 (-149), ?_⟩⟩
  · exact modifyMet_regs (s := start [(2, 0x0D800000), (4, 0x0D800000)] 0) (quiet_of (by decide)) (by decide +kernel)
  · exact modifyMet_regs (s := start [(2, 0x5F800000), (4, 0x5F800000)] 0) (quiet_of (by decide)) (by decide +kernel)
  · exact modifyMet_regs (s := start [(2, 0x40400000), (4, 0x3F800000)] 0x100400) (quiet_of (by decide)) (by decide +kernel)
  · exact writeMet_regs (s := start [(3, 0x47F00000)] 0) (quiet_of (by decide)) (by decide +kernel)
  · exact writeMet_regs (s := start [(2, 0x40000000)] 0x100400) (quiet_of (by decide)) (by decide +kernel)
  · exact writeMet_regs (s := start [(2, 0x01000001)] 0x100400) (quiet_of (by decide))
      (by decide +kernel)
  · exact writeMet_regs (s := start [(2, 0x3F000000)] 0x100400) (quiet_of (by decide)) (by decide +kernel)
  · exact writeMet_regs (s := start [(3, 0xBFE00000)] 0x100400) (quiet_of (by decide)) (by decide +kernel)
  · exact modifyMet_regs (s := start [(2, 0x00800000), (4, 0x00C00000)] 0) (quiet_of (by decide)) (by decide +kernel)

/-- A NaN on either side, a zero divisor, the square root of -1.0, and the invalid operands of REM. -/
theorem witness_realTraps :
    ModifyMet .r .r (fun s a b => realOutcome mulReal s a b = .invalid) (fun _ _ b => b) ∧
      ModifyMet .r .r (fun s a b => realOutcome divReal s a b = .zeroDivide) (fun _ _ b => b) ∧
      (∀ x ∈ [(OpType.r, (start [(2, 0x7FC00000)] 0)), (.l, start [(3, 0x7FF80000)] 0)],
        WriteMet x.1 x.1 (fun _ a => (fmtOf x.1).isNan a.toNat = true) (fun _ a => a) ∧
          ModifyMet x.1 x.1 (fun _ a b => (fmtOf x.1).isNan a.toNat = true ∨ (fmtOf x.1).isNan b.toNat = true)
            (fun _ _ b => b)) ∧
      (∀ x ∈ [(OpType.r, (start [(2, 0xBF800000)] 0)), (.l, start [(3, 0xBFF00000)] 0)],
        WriteMet x.1 x.1 (fun _ a => (fmtOf x.1).isNeg a.toNat = true) (fun _ a => a)) ∧
      (∀ t ∈ [OpType.r, .l], ModifyMet t t (fun _ a _ => (fmtOf t).isZero a.toNat = true) (fun _ _ b => b)) ∧
      ModifyMet .r .r (fun _ _ b => Fmt.real.value b.toNat = .inf true) (fun _ _ b => b) ∧
      ModifyMet .l .l (fun _ _ b => Fmt.long.value b.toNat = .inf false) (fun _ _ b => b) := by
  refine ⟨modifyMet_regs (s := start [(2, 0x7FC00000)] 0) (quiet_of (by decide)) (by decide +kernel),
    modifyMet_regs (s := start [(4, 0x3F800000)] 0) (quiet_of (by decide)) (by decide +kernel), ?_, ?_, ?_,
    modifyMet_regs (s := start [(4, 0xFF800000)] 0) (quiet_of (by decide)) (by decide +kernel),
    modifyMet_regs (s := start [(5, 0x7FF00000)] 0) (quiet_of (by decide)) (by decide +kernel)⟩
  · intro x hx
    simp only [List.mem_cons, List.not_mem_nil, or_false] at hx
    rcases hx with rfl | rfl
    · exact ⟨writeMet_regs (s := start [(2, 0x7FC00000)] 0) (quiet_of (by decide)) (by decide +kernel),
        modifyMet_regs (s := start [(4, 0x7FC00000)] 0) (quiet_of (by decide)) (by decide +kernel)⟩
    · exact ⟨writeMet_regs (s := start [(3, 0x7FF80000)] 0) (quiet_of (by decide)) (by decide +kernel),
        modifyMet_regs (s := start [(5, 0x7FF80000)] 0) (quiet_of (by decide)) (by decide +kernel)⟩
  · intro x hx
    simp only [List.mem_cons, List.not_mem_nil, or_false] at hx
    rcases hx with rfl | rfl
    · exact writeMet_regs (s := start [(2, 0xBF800000)] 0) (quiet_of (by decide)) (by decide +kernel)
    · exact writeMet_regs (s := start [(3, 0xBFF00000)] 0) (quiet_of (by decide)) (by decide +kernel)
  · intro t ht
    simp only [List.mem_cons, List.not_mem_nil, or_false] at ht
    rcases ht with rfl | rfl
    · exact modifyMet_regs (s := start [] 0) (quiet_of (by decide)) (by decide +kernel)
    · exact modifyMet_regs (s := start [] 0) (quiet_of (by decide)) (by decide +kernel)

/-- A number exactly half way between two of two bits, one that is only bracketed, the least and the greatest normalized
numbers and their neighbours outside, and the patterns of the least, the greatest and one. -/
theorem witness_rounding :
    (2 ≤ 2 ∧ Stands 2 5 0 false 5) ∧ Stands 2 9 0 true (19 / 2) ∧
      (∀ f ∈ [Fmt.real, Fmt.long],
        Stands f.prec 1 (-(f.bias : Int)) false (2 ^ (-(f.bias : Int))) ∧
          (2 : ℚ) ^ (-(f.bias : Int)) < 2 ^ (1 - (f.bias : Int)) ∧
        Stands f.prec 1 0 false 1 ∧ (2 : ℚ) ^ (1 - (f.bias : Int)) ≤ 1 ∧
        Stands f.prec 1 ((f.bias : Int) + 1) false (2 ^ ((f.bias : Int) + 1)) ∧
          (2 : ℚ) ^ (1 - (f.bias : Int)) ≤ 2 ^ ((f.bias : Int) + 1)) ∧
      (∀ f ∈ [Fmt.real, Fmt.long], 2 ^ (f.prec - 1) ≤ 2 ^ f.prec - 1 ∧ 2 ^ f.prec - 1 < 2 ^ f.prec) ∧
      (∀ x ∈ [0x00800000, 0x7F7FFFFF, 0x3F800000],
        x < 2 ^ (Fmt.real.prec + Fmt.real.eBits) ∧ 0 < Fmt.real.expo x ∧ Fmt.real.expo x < Fmt.real.emax) ∧
      ∀ x ∈ [0x0010000000000000, 0x7FEFFFFFFFFFFFFF],
        x < 2 ^ (Fmt.long.prec + Fmt.long.eBits) ∧ 0 < Fmt.long.expo x ∧ Fmt.long.expo x < Fmt.long.emax := by
  refine ⟨⟨by decide, by simp [Stands]⟩, by norm_num [Stands], ?_, by decide +kernel, by decide +kernel, by decide +kernel⟩
  · intro f hf
    have hb : (1 : Int) ≤ f.bias := by
      simp only [List.mem_cons, List.not_mem_nil, or_false] at hf
      rcases hf with rfl | rfl <;> decide
    refine ⟨⟨one_ne_zero, by simp⟩, zpow_lt_zpow_right₀ (by norm_num) (by omega), ⟨one_ne_zero, by simp⟩, ?_,
      ⟨one_ne_zero, by simp⟩, zpow_le_zpow_right₀ (by norm_num) (by omega)⟩
    exact zpow_le_one_of_nonpos₀ (by norm_num) (by omega)

theorem witness_realRemaindersRoots :
    (∃ (v : Word) (ix g r u : Bool) (x : FVal), ModifyMet .r .r
      (fun s a b =>
        Fmt.real.rem (Fmt.real.wrap s.cfg) s.ps.rc (Fmt.real.value b.toNat) (Fmt.real.value a.toNat) =
            .store (some v.toNat) ix false false g r u ∧
          remValue (Fmt.real.value b.toNat) (Fmt.real.value a.toNat) = some x ∧ (ix && s.iixEnabled) = false)
      (fun _ _ _ => v)) ∧
    (∃ (v : BitVec 64) (ix g r u : Bool) (x : FVal), ModifyMet .l .l
      (fun s a b =>
        Fmt.long.rem (Fmt.long.wrap s.cfg) s.ps.rc (Fmt.long.value b.toNat) (Fmt.long.value a.toNat) =
            .store (some v.toNat) ix false false g r u ∧
          remValue (Fmt.long.value b.toNat) (Fmt.long.value a.toNat) = some x ∧ (ix && s.iixEnabled) = false)
      (fun _ _ _ => v)) ∧
    (∃ (v : Word) (ix g r u : Bool), WriteMet .r .r
      (fun s a => Fmt.real.sqrt s.ps.rc (Fmt.real.value a.toNat) = .store (some v.toNat) ix false false g r u ∧
        (ix && s.iixEnabled) = false) (fun _ _ => v)) ∧
    ∃ (v : BitVec 64) (ix g r u : Bool), WriteMet .l .l
      (fun s a => Fmt.long.sqrt s.ps.rc (Fmt.long.value a.toNat) = .store (some v.toNat) ix false false g r u ∧
        (ix && s.iixEnabled) = false) (fun _ _ => v) := by
  refine ⟨⟨0x3F800000, false, false, false, false, .fin false 8388608 (-23), ?_⟩,
    ⟨0x3FF0000000000000, false, false, false, false, .fin false 4503599627370496 (-52), ?_⟩,
    ⟨0x3FB504F3, true, false, true, false, ?_⟩, ⟨0x4000000000000000, false, false, false, false, ?_⟩⟩
  · exact modifyMet_regs (s := reals .r 0) (quiet_of (by decide)) (by decide +kernel)
  · exact modifyMet_regs (s := reals .l 0) (quiet_of (by decide)) (by decide +kernel)
  · exact writeMet_regs (s := reals .r 0) (quiet_of (by decide)) (by decide +kernel)
  · exact writeMet_regs (s := start [(3, 0x40100000)] 0) (quiet_of (by decide)) (by decide +kernel)

theorem witness_realCompares : ∀ t ∈ [OpType.r, .l], CompareMet t :=
  fun t _ => compareMet_regs t (s := start [] 0) (quiet_of (by decide))

theorem witness_conversionsToReal :
    (∀ x ∈ [(OpType.b, OpType.r), (.h, .r), (.w, .r), (.b, .l), (.h, .l), (.w, .l)],
      ∃ (v : BitVec x.2.bits) (ix g r u : Bool), WriteMet x.1 x.2
        (fun s a => (fmtOf x.2).ofInt s.ps.rc a.toInt = .store (some v.toNat) ix false false g r u ∧
          (ix && s.iixEnabled) = false) (fun _ _ => v)) ∧
    ∀ x ∈ [(OpType.l, OpType.r), (.r, .l)],
      ∃ (v : BitVec x.2.bits) (ix g r u : Bool), WriteMet x.1 x.2
        (fun s a =>
          (fmtOf x.2).deliverValue ((fmtOf x.2).wrap s.cfg) s.ps.rc ((fmtOf x.1).value a.toNat) =
              .store (some v.toNat) ix false false g r u ∧
            (ix && s.iixEnabled) = false) (fun _ _ => v) := by
  constructor <;> intro x hx <;> simp only [List.mem_cons, List.not_mem_nil, or_false] at hx
  · rcases hx with rfl | rfl | rfl | rfl | rfl | rfl
    all_goals first
      | exact ⟨0x3F800000, false, false, false, false,
          writeMet_regs (s := start [(2, 1)] 0) (quiet_of (by decide)) (by decide +kernel)⟩
      | exact ⟨0x3FF0000000000000, false, false, false, false,
          writeMet_regs (s := start [(2, 1)] 0) (quiet_of (by decide)) (by decide +kernel)⟩
  · rcases hx with rfl | rfl
    · exact ⟨0x40000000, false, false, false, false,
        writeMet_regs (s := reals .l 0) (quiet_of (by decide)) (by decide +kernel)⟩
    · exact ⟨0x4000000000000000, false, false, false, false,
        writeMet_regs (s := reals .r 0) (quiet_of (by decide)) (by decide +kernel)⟩

/-- The greatest Word and infinity. -/
theorem witness_conversionsToWord :
    (∃ (sg : Bool) (m : Nat) (e : Int), WriteMet .l .w
      (fun s a => Fmt.long.value a.toNat = .fin sg m e ∧ s.ps.rc = 0 ∧
        (outOfRange 32 (roundToInt 0 sg m e).value && s.ivEnabled) = false ∧
        (((roundToInt 0 sg m e).guard || (roundToInt 0 sg m e).rest) && s.iixEnabled) = false)
      (fun _ _ => BitVec.ofInt 32 (roundToInt 0 sg m e).value)) ∧
    ∃ (src des : Ref) (s s₁ s₂ s₄ : State) (l₁ l₂ : Loc) (a : Word) (sg : Bool) (q : PsReg),
      s.ps.rep = 0 ∧ evalBoth .r .w .write src des s = .ok (l₁, l₂) s₁ ∧ readLoc .r l₁ s₁ = .ok a s₂ ∧
        Fmt.real.value a.toNat = .inf sg ∧ s.ivEnabled = false ∧
          q = ({ s.ps with fV := true, fN := sg, fZ := s.freeNext 32 == 0, fU := false }).clearFp ∧
            writeLoc .w l₂ (s.freeNext 32) (s₂.drew 1) = .ok () s₄ ∧ (s₄.withPs q).Settled ∧
              (src = .stk ∨ des = .stk → 2048 ≤ s₄.sp.toNat) := by
  refine ⟨⟨false, 9007199250546688, -22, writeMet_regs (s := start [(2, 0xFFC00000), (3, 0x41DFFFFF)] 0x108400)
    (quiet_of (by decide)) (by decide +kernel)⟩, ?_⟩
  refine ⟨.reg 2, .reg 4, start [(2, 0xFF800000)] 0, _, _, _, _, .reg 4, 0xFF800000, true, _, by decide, rfl, rfl,
    by decide +kernel, by decide, rfl, rfl, ?_, by simp⟩
  exact (quiet_of (s := start [(2, 0xFF800000)] 0) (by decide)).stays rfl rfl rfl rfl rfl rfl rfl rfl rfl _
    ⟨rfl, rfl, rfl, rfl, rfl, rfl⟩


/-- The outcome is a next state. -/
def nexts {φ ρ : Type} (x : Host.Outcome State φ ρ) : Bool :=
  match x with
  | .next _ => true
  | _ => false

theorem exists_of_nexts {φ ρ : Type} {x : Host.Outcome State φ ρ} (h : nexts x = true) : ∃ t, x = .next t := by
  cases x with
  | next t => exact ⟨t, rfl⟩
  | fault r => simp [nexts] at h
  | refused r => simp [nexts] at h

/-- ADDW R1,R2 at pc, the schedule empty or naming the processor, a byte of REFERENCE 2 suspect; and a repeat that skips. -/
theorem witness_stepRunsDecoded :
    (∀ es ∈ [[], [Event.cpu]],
      let s := { (start [] 0).placed [0x44, 0xC1, 0xC2] with events := es, fetch := ⟨[0x1002], [], []⟩ }
      s.idle = false ∧ s.pastEnd = false ∧ decode s.cfg (fetchBytes s) = .ok (.addw (.reg 1) (.reg 2), List.replicate 16 0) ∧
        staleByte s (fetchedFirst (.addw (.reg 1) (.reg 2)) s) = none ∧ s.ps.rep = 0) ∧
    (start [] 0x4C000000).ps.rep ≠ 0 ∧ repeatEnds (start [] 0x4C000000) = true := by decide +kernel

theorem witness_decodeEncode : (Instr.movl (.imm 0xFFFFFFFFFFFFFFFF) (.offW 15 0xFFFFFFFF)).encodable = true := by decide

theorem witness_encodeDecode :
    decode Params.default [0x60, 0x3F, 0xC2, 0x99] = .ok (.subb (.lit 63) (.reg 2), [0x99]) ∧
      (Instr.subb (.lit 63) (.reg 2)).encodable = true := by decide

/-- The least and the greatest reserved opcode. -/
theorem witness_reservedOpcodes :
    ∀ b ∈ [0x06#8, 0xFF],
      let s := (start [] 0).placed [b]
      s.idle = false ∧ s.pastEnd = false ∧ s.events = [] ∧ s.cfg.divRows = .opcodeMap ∧ fetchBytes s = b :: List.replicate 18 0 ∧
        lookupOpcode b opcodeMap = none ∧ staleByte s 1 = none := by
  intro b hb
  simp only [List.mem_cons, List.not_mem_nil, or_false] at hb
  rcases hb with rfl | rfl <;> decide +kernel

/-- A quiet node before an ADDW, and a channel event. -/
theorem witness_invariantKept :
    ∃ s t : State, s.Inv ∧ step s = .next t :=
  ⟨(start [] 0).placed [0x44, 0xC1, 0xC2],
    (exists_of_nexts (show nexts (step ((start [] 0).placed [0x44, 0xC1, 0xC2])) = true by decide +kernel)).imp
      fun _ h => ⟨⟨by decide +kernel, by decide +kernel, by decide +kernel⟩, h⟩⟩

/-- Instructions of each kind complete: one that writes none of the registers, LDPR, LCNT, ERON. -/
theorem witness_whoChangesWhat :
    ∀ i ∈ [Instr.nop, .ldpr (.reg 1) (.lit 5), .lcnt (.reg 1) (.lit 0), .rset, .eron, .erof],
      ∃ t, exec i (start [] 0) = .next t := by
  intro i hi
  simp only [List.mem_cons, List.not_mem_nil, or_false] at hi
  rcases hi with rfl | rfl | rfl | rfl | rfl | rfl <;> exact exists_of_nexts (by decide +kernel)

/-- Register 3 is written neither by MOVL (R1)+,R4 nor, R2 counting, by its repeat, an input channel storing meanwhile. -/
theorem witness_registerFrame :
    ∀ ps ∈ [0#32, 0x48000000],
      let s := { start [(2, 1)] ps with bus := [[.tick, .store 0]] }
      let i := Instr.movl (.autoInc 1) (.reg 4)
      (∃ t, exec i s = .next t) ∧ s.ueLatch = none ∧ (∀ es ∈ s.bus, ∀ e ∈ es, ∀ a k, e ≠ .uncorrectable a k) ∧
        mayWrite i 3 = false ∧ (s.ps.rep = 0 ∨ s.ps.repIndex ≠ 3) := by
  intro ps hps
  simp only [List.mem_cons, List.not_mem_nil, or_false] at hps
  rcases hps with rfl | rfl <;>
    exact ⟨exists_of_nexts (by decide +kernel), by decide +kernel, by simp, by decide +kernel, by decide +kernel⟩

/-- A node of a System Control Board (R93). -/
def onBoard : State := { start [] 0 with cfg := { Params.default with ioBoard := true } }

/-- A step, and one of each agent; the host finds no System Control Board here, and the last halfword of memory on one. -/
theorem witness_stepFrame :
    (∃ t, step ((start [] 0).placed [0x0B]) = .next t) ∧
      (∀ e ∈ [Event.cpu, .tick, .arrive 0 1 true, .store 0, .send 10, .broadcast, .deliver 0, .correctedEcc,
          .uncorrectable 0x4000 4, .hostWrite 65535 7, .hostRead 65535], ∃ t, agentStep e (start [] 0) = .next t) ∧
      (start [] 0).cfg.ioBoard = false ∧
      onBoard.cfg.ioBoard = true ∧ 2 * 65535 + 2 ≤ onBoard.cfg.memSize ∧ onBoard.mem.wf = true := by
  refine ⟨exists_of_nexts (by decide +kernel), ?_, by decide, by decide, by decide, by decide⟩
  intro e he
  simp only [List.mem_cons, List.not_mem_nil, or_false] at he
  rcases he with rfl | rfl | rfl | rfl | rfl | rfl | rfl | rfl | rfl | rfl | rfl <;> exact exists_of_nexts (by decide +kernel)

/-- A Longreal in R15 fills R15 and R0, and no other register. -/
theorem witness_registerOperands :
    (∀ m ∈ [1, 14], Ref.stores (.dest .l) m (.reg 15) = false) ∧ Ref.stores (.dest .l) 0 (.reg 15) = true ∧
      Ref.stores (.dest .w) 0 (.reg 15) = false := by decide

/-- The last Word of memory, and address sums at both ends of the address space. -/
theorem witness_evaluatedModes :
    (start [] 0).bus = [] ∧ checkAccess 131072 131068 4 = .present ∧ checkAccess 131072 0 4 = .present ∧
      (∀ x ∈ [(0#32, 0#32), (0xFFFFFFFF, 0), (4, 0xFFFFFFFC), (0xFFFFFFF0, 0xF)],
        0 ≤ (x.1.toNat : Int) + x.2.toInt ∧ (x.1.toNat : Int) + x.2.toInt < 2 ^ 32) ∧
      (∀ x ∈ [(0#32, 0#16), (0x8000, 0x8000), (0xFFFF8000, 0x7FFF)],
        0 ≤ (x.1.toNat : Int) + x.2.toInt ∧ (x.1.toNat : Int) + x.2.toInt < 2 ^ 32) ∧
      (∀ x ∈ [(0#32, 0#8), (0x80, 0x80), (0xFFFFFF80, 0x7F)],
        0 ≤ (x.1.toNat : Int) + x.2.toInt ∧ (x.1.toNat : Int) + x.2.toInt < 2 ^ 32) ∧
      (∀ a, (start [] 0).fetchFresh a = true) ∧
      ∃ (s s₁ s₂ : State) (l₁ l₂ : Loc), evalRef .src 4 s.sp (s.pc + 2) (.autoInc 1) s = .ok l₁ s₁ ∧
        evalSecond .write (.value .w) (.value .w) s.sp (.autoInc 1) (.autoInc 1) s₁ = .ok l₂ s₂ := by
  refine ⟨by decide, by decide, by decide, ?_, ?_, ?_, fun _ => rfl, ⟨start [] 0, _, _, _, _, rfl, rfl⟩⟩ <;>
    simp [BitVec.toInt]

theorem witness_operandFrame :
    ∀ x ∈ [(Role.src, Ref.autoInc 1), (.write, .autoSkip 15), (.look, .stk), (.address, .offB 1 0)],
      (start [] 0).bus = [] ∧ ∃ l t, evalRef x.1 4 0x8000 0x1002 x.2 (start [] 0) = .ok l t := by
  intro x hx
  simp only [List.mem_cons, List.not_mem_nil, or_false] at hx
  rcases hx with rfl | rfl | rfl | rfl <;> exact ⟨rfl, _, _, rfl⟩

/-- A pop of the last byte and of the last eight bytes of memory, a push that ends at address 0. -/
theorem witness_stackModes :
    (∀ x ∈ [(OpType.b, 0x1FFFF#32), (.h, 0x1FFFE), (.w, 0x1FFFC), (.r, 0x1FFFC), (.l, 0x1FFF8)],
        checkAccess 131072 x.2.toNat x.1.len = .present) ∧
      (∀ x ∈ [(OpType.b, 1#32), (.h, 2), (.w, 4), (.r, 4), (.l, 8)],
        checkAccess 131072 (x.2 - BitVec.ofNat 32 x.1.len).toNat x.1.len = .present) ∧
      Memory.wf [] = true ∧ (start [] 0).bus = [] := by decide

/-- A node whose memory fills the address space, its pc at the last address. -/
def atEnd : State := { start [] 0 with pc := 0xFFFFFFFF, cfg := { Params.default with memSize := 2 ^ 32 } }

/-- One below 0 and one past the address space for each width of offset, two references whose evaluation raises, and the
last address. -/
theorem witness_operandErrors :
    (∀ x ∈ [(0#32, 0xFFFFFFFF#32), (0xFFFFFFFF, 1)], (x.1.toNat : Int) + x.2.toInt < 0 ∨ 2 ^ 32 ≤ (x.1.toNat : Int) + x.2.toInt) ∧
      (∀ x ∈ [(0#32, 0xFFFF#16), (0xFFFFFFFF, 1)], (x.1.toNat : Int) + x.2.toInt < 0 ∨ 2 ^ 32 ≤ (x.1.toNat : Int) + x.2.toInt) ∧
      (∀ x ∈ [(0#32, 0xFF#8), (0xFFFFFFFF, 1)], (x.1.toNat : Int) + x.2.toInt < 0 ∨ 2 ^ 32 ≤ (x.1.toNat : Int) + x.2.toInt) ∧
      (start [] 0).ps.rep = 0 ∧ tableSpec Params.default 0xFD = 0xFD ∧
      (∀ b ∈ [0x8F#8, 0xBF, 0xD0, 0xFD], (tableSpec Params.default b).toNat / 16 ≠ 12) ∧
      (atEnd.pc = 0xFFFFFFFF ∧ atEnd.ps.rep = 0 ∧ atEnd.Settled) ∧
      (let s : State := { atEnd with pc := 0, pastEnd := true }
       s.pastEnd = true ∧ s.pc = 0 ∧ 2 ^ 32 ≤ s.cfg.memSize ∧ s.idle = false ∧ s.events = []) ∧
      ∀ src ∈ [Ref.illegal 0xE0, .offW 1 0xFFFFFFFF], ∀ role ∈ [Role.write, .modify, .look],
        ∃ n a s₁, evalBoth .w .w role src (.reg 2) (start [] 0) = .trap n a s₁ := by
  refine ⟨by simp [BitVec.toInt], by simp [BitVec.toInt], by simp [BitVec.toInt], by decide, by decide, by decide,
    ⟨rfl, by decide, settled_of (by decide)⟩, by decide, ?_⟩
  intro src hs role hr
  simp only [List.mem_cons, List.not_mem_nil, or_false] at hs hr
  rcases hs with rfl | rfl <;> rcases hr with rfl | rfl | rfl <;> exact ⟨_, _, _, rfl⟩

/-- References of each length whose last byte, and one whose every byte but the specifier, is not there. -/
theorem witness_cutOff :
    (∀ x ∈ [(0x8F#8, 1), (0xF8, 1), (0xF9, 2), (0xBF, 4), (0xFB, 4), (0xFD, 8)],
      decodeRef Params.default (.value .l) (x.1 :: List.replicate (x.2 - 1) 0) = (.missing (Fin.ofNat 9 x.2), [])) ∧
      decodeRef Params.default (.value .l) [0xFD] = (.missing 1, []) ∧ 2 ^ 32 ≤ atEnd.cfg.memSize := by decide

/-- R1 and SP such that a Word there has its last byte past 2^32 - 1. -/
def overEnd : State := { start [(1, 0xFFFFFFFD)] 0 with cfg := atEnd.cfg, sp := 0xFFFFFFFD }

/-- The same with SP 1, so that a push of four bytes wraps below 0. -/
def underStart : State := { overEnd with sp := 1 }

/-- The highest addresses of a Word that lies within the address space, and the lowest of one that does not; a pointer, an
operand, a pop and a push there; and the shapes whose reads and stores raise. -/
theorem witness_addressErrors :
    (checkAccess (2 ^ 32) 0xFFFFFFFC 4 = .present ∧ checkAccess (2 ^ 32) 0xFFFFFFFD 4 = .addressError ∧
      checkAccess overEnd.cfg.memSize (overEnd.reg 1).toNat 4 = .addressError ∧
      checkAccess overEnd.cfg.memSize (overEnd.reg 1 + 1#32).toNat 4 = .addressError ∧
      (∀ x ∈ [(OpType.h, 0xFFFFFFFF#32), (.w, 0xFFFFFFFD), (.r, 0xFFFFFFFD), (.l, 0xFFFFFFF9)],
        checkAccess overEnd.cfg.memSize x.2.toNat x.1.len = .addressError) ∧
      (∀ x ∈ [(OpType.h, 1#32), (.w, 3), (.r, 1), (.l, 7)],
        checkAccess overEnd.cfg.memSize (x.2 - BitVec.ofNat 32 x.1.len).toNat x.1.len = .addressError) ∧
      checkAccess overEnd.cfg.memSize overEnd.sp.toNat 4 = .addressError ∧
      checkAccess underStart.cfg.memSize (underStart.sp - 4).toNat 4 = .addressError ∧ overEnd.ps.rep = 0) ∧
    (∃ (s₀ s₁ : State) (t a : Word) (n : Nat), evalTarget underStart.sp (underStart.pc + 2) (.lit 16) underStart = .ok t s₀ ∧
      push4 (pcNext (.call (.lit 16)) underStart) s₀ = .trap n a s₁) ∧
    (∃ (s₁ : State) (a : Word) (n : Nat), pop4 overEnd = .trap n a s₁) ∧
    (∀ role ∈ [Role.write, .modify, .look], ∃ (l₁ l₂ : Loc) (s₁ s₂ : State) (n : Nat) (a : Word),
      evalBoth .w .w role (.ind 1) (.reg 4) overEnd = .ok (l₁, l₂) s₁ ∧ readLoc .w l₁ s₁ = .trap n a s₂) ∧
    (∃ (l₁ l₂ : Loc) (s₁ s₀ s₂ : State) (v : Word) (n : Nat) (a : Word),
      evalBoth .w .w .write (.reg 4) (.ind 1) overEnd = .ok (l₁, l₂) s₁ ∧ readLoc .w l₁ s₁ = .ok v s₀ ∧
        writeLoc .w l₂ v s₀ = .trap n a s₂) ∧
    ∀ role ∈ [Role.modify, .look], ∃ (l₁ l₂ : Loc) (s₁ s₀ s₂ : State) (v : Word) (n : Nat) (a : Word),
      evalBoth .w .w role (.reg 4) (.ind 1) overEnd = .ok (l₁, l₂) s₁ ∧ readLoc .w l₁ s₁ = .ok v s₀ ∧
        readLoc .w l₂ s₀ = .trap n a s₂ := by
  refine ⟨by decide, ⟨_, _, _, _, _, rfl, rfl⟩, ⟨_, _, _, rfl⟩, ?_, ⟨_, _, _, _, _, _, _, _, rfl, rfl, rfl⟩, ?_⟩
  · intro role hr
    simp only [List.mem_cons, List.not_mem_nil, or_false] at hr
    rcases hr with rfl | rfl | rfl <;> exact ⟨_, _, _, _, _, _, rfl, rfl⟩
  · intro role hr
    simp only [List.mem_cons, List.not_mem_nil, or_false] at hr
    rcases hr with rfl | rfl <;> exact ⟨_, _, _, _, _, _, _, _, rfl, rfl, rfl⟩

/-- The last Word of memory at an even and at an odd address, and the first that is not all there; the same at the end of
the address space. -/
theorem test_checkAccess :
    checkAccess 131072 131068 4 = .present ∧ checkAccess 131072 131067 4 = .present ∧
      checkAccess 131072 131069 4 = .absent ∧ checkAccess (2 ^ 32) 0xFFFFFFFC 4 = .present ∧
      checkAccess (2 ^ 32) 0xFFFFFFFD 4 = .addressError := by decide

/-- The last byte and the last eight bytes of memory. -/
theorem witness_operandStorage :
    Memory.wf [(7, 1), (8, 255)] = true ∧ (start [] 0).bus = [] ∧ (start [] 0).mem.wf = true ∧
      (∀ x ∈ [(OpType.b, 0x1FFFF#32), (.h, 0x1FFFE), (.w, 0x1FFFC), (.r, 0x1FFFC), (.l, 0x1FFF8)],
        checkAccess (start [] 0).cfg.memSize x.2.toNat x.1.len = .present) := by decide

theorem witness_branches :
    (∃ (s s₁ : State) (t : Word), s.ps.rep = 0 ∧ evalTarget s.sp (s.pc + 2) (.lit 16) s = .ok t s₁ ∧
      (true && s.ps.fU) = false ∧ s₁.Settled) ∧
    ∃ (s s₁ : State) (t : Word), s.ps.rep = 0 ∧ evalTarget s.sp (s.pc + 2) (.lit 16) s = .ok t s₁ ∧ s.ps.fU = true :=
  ⟨⟨start [] 0, start [] 0, _, by decide, rfl, by decide, settled_of (by decide)⟩, ⟨start [] 0x10, _, _, by decide, rfl, by decide⟩⟩

theorem witness_targets : ∃ (a : Word) (t : State), evalRef .address 4 0x8000 0x1002 (.offB 1 4) (start [] 0) = .ok (.mem a) t :=
  ⟨_, _, rfl⟩

/-- A push of a Word that lies in memory. -/
theorem push4_fits (v : Word) {s : State} (hb : s.bus = [])
    (h : checkAccess s.cfg.memSize (s.sp - 4).toNat 4 = .present) : push4 v s = .ok () (s.pushed v) :=
  (push4_eq_ok hb).2 ⟨h, rfl⟩

/-- A pop of a Word that lies in memory. -/
theorem pop4_fits {s : State} (hb : s.bus = []) (h : checkAccess s.cfg.memSize s.sp.toNat 4 = .present) :
    pop4 s = .ok (BitVec.ofNat 32 (s.mem.readN s.sp.toNat 4)) { s with sp := s.sp + 4 } :=
  (pop4_eq_ok hb).2 ⟨h, rfl, rfl⟩

/-- An entry that fits memory. -/
theorem enter_fits {n : Nat} (a : Word) {s : State} (hb : s.bus = []) (hn : n < 256) (h : entryFits s n = true) :
    enter n a s = .ok () (entryState n a s) := (enter_eq_ok hb hn).2 ⟨h, rfl⟩

/-- A start with a stack pointer of its own. -/
def stacked (sp ps : Word) : State := { start [] ps with sp := sp }

/-- Each leaves SP at exactly 2048. -/
theorem witness_calls :
    (∃ (s s₁ s₂ : State) (t : Word), s.ps.rep = 0 ∧ evalTarget s.sp (s.pc + 2) (.lit 16) s = .ok t s₁ ∧
      push4 (pcNext (.call (.lit 16)) s) s₁ = .ok () s₂ ∧ s₂.Settled ∧ 2048 ≤ s₂.sp.toNat ∧ s.bus = [] ∧
        s.mem.wf = true) ∧
    (∃ (s s₁ : State) (t : Word), s.ps.rep = 0 ∧ pop4 s = .ok t s₁ ∧ s₁.Settled ∧ 2048 ≤ s₁.sp.toNat ∧ s.bus = []) ∧
    ∃ (s s₁ s₂ s₃ : State) (l : Loc) (k t : Word), s.ps.rep = 0 ∧
      evalRef .src 4 s.sp (s.pc + 2) (.lit 4) s = .ok l s₁ ∧ readLoc .w l s₁ = .ok k s₂ ∧ pop4 s₂ = .ok t s₃ ∧
        ({ s₃ with sp := s₃.sp + k } : State).Settled ∧ 2048 ≤ (s₃.sp + k).toNat ∧ s.bus = [] :=
  ⟨⟨stacked 2052 0, _, (stacked 2052 0).pushed 0x1002, _, by decide, rfl, push4_fits _ rfl (by decide),
      settled_of (by decide), by decide, rfl, by decide⟩,
    ⟨stacked 2044 0, _, _, by decide, pop4_fits rfl (by decide), settled_of (by decide), by decide, rfl⟩,
    ⟨stacked 2040 0, stacked 2040 0, stacked 2040 0, _, _, 4, _, by decide, rfl, rfl, pop4_fits rfl (by decide),
      settled_of (by decide), by decide, rfl⟩⟩

/-- Pushes to the first and to the last Word of memory, pops from them. -/
theorem witness_calls_complete :
    (∀ sp ∈ [4#32, 131072], let s := stacked sp 0
      s.bus = [] ∧ (s.sp - 4).toNat + 4 ≤ s.cfg.memSize ∧ (s.sp - 4).toNat + 4 ≤ 2 ^ 32) ∧
    ∀ sp ∈ [0#32, 131068], let s := stacked sp 0
      s.bus = [] ∧ s.sp.toNat + 4 ≤ s.cfg.memSize ∧ s.sp.toNat + 4 ≤ 2 ^ 32 := by
  have fits {n : Nat} (h : n ≤ 131072) : n ≤ 131072 ∧ n ≤ 2 ^ 32 := ⟨h, by omega⟩
  constructor <;>
  · intro sp h
    simp only [List.mem_cons, List.not_mem_nil, or_false] at h
    rcases h with rfl | rfl <;> exact ⟨rfl, fits (by decide)⟩

theorem witness_moveAddressRepeat :
    (∃ (s s₁ s₂ s₃ : State) (l : Loc) (v : Word), s.ps.rep = 0 ∧ evalTarget s.sp (s.pc + 2) (.ind 1) s = .ok v s₁ ∧
      evalSecond .write .addr (.value .w) s.sp (.ind 1) .stk s₁ = .ok l s₂ ∧ writeLoc .w l v s₂ = .ok () s₃ ∧
        s₃.Settled ∧ 2048 ≤ s₃.sp.toNat ∧ s.bus = []) ∧
    (∀ p ∈ [(Instr.rep, 1#2), (.repz, 2#2), (.repnz, 3#2)], ∀ n ∈ [0, 15], (start [] 0).ps.rep = 0 ∧
      ((start [] 0).withPs { (start [] 0).ps with rep := p.2, repReg := BitVec.ofNat 4 n }).Settled) ∧
    (∀ n, Ref.ind 1 ≠ .reg n) ∧ (∀ n, Ref.ind 1 ≠ .missing n) := by
  refine ⟨⟨stacked 2052 0, _, _, (stacked 2052 0).pushed 0, .push, 0, by decide, rfl, rfl, push4_fits 0 rfl (by decide),
    settled_of (by decide), by decide, rfl⟩, ?_, by simp, by simp⟩
  intro p _ n _
  exact ⟨by decide, (quiet_of (s := start [] 0) (by decide)).stays_self _ ⟨rfl, rfl, rfl, rfl, rfl, rfl⟩⟩

/-- The count zero, Z clear under REPZ, and Z set under REPNZ; a count of one that goes down first. -/
theorem witness_repeatSkips :
    (∀ x ∈ [(0x4C000000#32, 0#32), (0x8C000000, 2), (0xCC000004, 2)],
      let s := start [(3, x.2)] x.1
      (Instr.jmp (.lit 5)).wellFormed = true ∧ s.ps.rep ≠ 0 ∧ settled s = true ∧
        ((s.ps.rep = 2 ∧ s.ps.fZ = false) ∨ (s.ps.rep = 3 ∧ s.ps.fZ = true) ∨ s.reg s.ps.repIndex = 0) ∧
        s.cfg.repBranch = .testThenDecrement) ∧
    (let s := { start [(3, 1)] 0x4C000000 with cfg := { Params.default with repBranch := .decrementThenTest } }
     isBranch (.jmp (.lit 5)) = true ∧ s.ps.rep ≠ 0 ∧ settled s = true ∧ s.cfg.repBranch = .decrementThenTest ∧
       s.reg s.ps.repIndex = 1) ∧
    (Ref.reg 1).allowed (.value .w) = true ∧ (∀ n, Ref.reg 1 ≠ .missing n) := by
  refine ⟨?_, by decide, by decide, by decide⟩
  intro x hx
  simp only [List.mem_cons, List.not_mem_nil, or_false] at hx
  rcases hx with rfl | rfl | rfl <;> decide

/-- A repeat by R3 that goes on: REP in its last iteration, REPZ with Z set, REPNZ with Z clear. -/
def repeating (ps : Word) : State := start [(3, 1), (1, 0x20000)] ps

/-- The repeats of the tests. -/
theorem repeats_of {ps : Word} (h : ps ∈ [0x4C000000#32, 0x8C000004, 0xCC000000]) :
    (repeating ps).Repeats 0 ∧ (repeating ps).ps.repIndex = 3 := by
  simp only [List.mem_cons, List.not_mem_nil, or_false] at h
  rcases h with rfl | rfl | rfl <;> exact ⟨⟨by decide, by decide, by decide, by decide⟩, by decide⟩

/-- Instructions of each shape run under each kind of repeat. -/
theorem witness_runs :
    ∀ ps ∈ [0x4C000000#32, 0x8C000004, 0xCC000000],
      ∀ i ∈ [Instr.addw (.reg 2) (.reg 4), .movl (.reg 1) (.reg 5), .cmpb (.autoInc 2) .stk, .cvrw (.reg 2) (.reg 4),
          .mova (.ind 1) .stk, .lptr (.reg 1) (.imm 63), .lcnt (.reg 1) (.lit 31), .bptr (.reg 1) (.imm 1),
          .bcnt (.reg 1) (.imm 1), .ldpr (.reg 1) (.lit 12), .stpr (.lit 12) (.reg 4)],
        Runs i (repeating ps) := by
  intro ps hp i hi
  obtain ⟨h, hr⟩ := repeats_of hp
  refine .inr ⟨h, ?_⟩
  rw [hr]
  simp only [List.mem_cons, List.not_mem_nil, or_false] at hi
  rcases hi with rfl | rfl | rfl | rfl | rfl | rfl | rfl | rfl | rfl | rfl | rfl <;> decide

/-- The last iteration: the count is one. A move and an addition that complete, one that overflows with IV and IE set. -/
theorem witness_repeatRuns :
    let s := repeating 0x4C000000
    (s.Repeats 0 ∧ Calm s.clearRep ∧ s.Settled ∧ s.ivEnabled = false ∧
      (∀ i ∈ [Instr.movl (.reg 1) (.reg 5), .addw (.reg 2) (.reg 4), .divw (.reg 2) (.reg 4), .trap (.lit 63),
          .ldpr (.reg 1) (.lit 1)], namesRegister s.ps.repIndex i = false)) ∧
    (∀ t ∈ [OpType.b, .h, .w, .r, .l], ∃ (s₁ s₂ s₄ : State) (l₁ l₂ : Loc) (a : BitVec t.bits),
      evalBoth t t .write (.reg 1) (.reg 5) s = .ok (l₁, l₂) s₁ ∧ readLoc t l₁ s₁ = .ok a s₂ ∧
        writeLoc t l₂ a s₂ = .ok () s₄ ∧ StaysSettled s.ps s₄) ∧
    (∃ (s₁ s₂ s₃ s₄ : State) (l₁ l₂ : Loc) (a b : Word), evalBoth .w .w .modify (.reg 2) (.reg 4) s = .ok (l₁, l₂) s₁ ∧
      readLoc .w l₁ s₁ = .ok a s₂ ∧ readLoc .w l₂ s₂ = .ok b s₃ ∧ writeLoc .w l₂ (a + b) s₃ = .ok () s₄ ∧
        StaysSettled s.ps s₄) ∧
    ∃ (s s₁ s₂ s₃ s₄ : State) (l₁ l₂ : Loc) (a b : Word), s.Repeats 0 ∧
      namesRegister s.ps.repIndex (.addw (.reg 2) (.reg 4)) = false ∧
        evalBoth .w .w .modify (.reg 2) (.reg 4) s = .ok (l₁, l₂) s₁ ∧
          readLoc .w l₁ s₁ = .ok a s₂ ∧ readLoc .w l₂ s₂ = .ok b s₃ ∧ writeLoc .w l₂ (a + b) s₃ = .ok () s₄ ∧
            outOfRange 32 (a.toInt + b.toInt) = true ∧ s.ivEnabled = true ∧ s₄.bus = [] := by
  intro s
  have hq : Calm s.clearRep := quiet_of (by decide)
  have hw (t : OpType) (n : Fin 16) (v : BitVec t.bits) : StaysSettled s.ps (writeReg t n v s) := by
    cases t <;> exact hq.stays rfl rfl rfl rfl rfl rfl rfl rfl rfl
  exact ⟨⟨(repeats_of (by simp)).1, hq, settled_of (by decide), by decide, by decide⟩,
    fun t _ => ⟨_, _, _, .reg 1, .reg 5, _, rfl, rfl, rfl, hw t 5 _⟩,
    ⟨_, _, _, _, .reg 2, .reg 4, _, _, rfl, rfl, rfl, rfl, hw .w 4 _⟩,
    ⟨start [(3, 1), (2, 0x7FFFFFFF), (4, 1)] 0x4C108000, _, _, _, _, .reg 2, .reg 4, 0x7FFFFFFF, 1,
      ⟨by decide, by decide, by decide, by decide⟩, by decide, rfl, rfl, rfl, rfl, by decide, by decide, rfl⟩⟩

/-- Under a repeat, in a full address space: an Operand Error of the first and of the second reference, an Address Error
of an address sum, of a read and of a store; and a division by zero. -/
theorem witness_repeatRuns_suppressed :
    (∀ x ∈ [(Ref.illegal 0xE0, Ref.reg 5), (.reg 2, .lit 5), (.offW 1 0x80000000, .reg 5)], ∃ (s s₁ : State) (n : Nat) (a : Word),
      s.Repeats 0 ∧ namesRegister s.ps.repIndex (.movw x.1 x.2) = false ∧
        evalBoth .w .w .write x.1 x.2 s = .trap n a s₁) ∧
    (∃ (s s₁ s₂ : State) (l₁ l₂ : Loc) (n : Nat) (a : Word), s.Repeats 0 ∧
      namesRegister s.ps.repIndex (.movw (.ind 1) (.reg 4)) = false ∧
        evalBoth .w .w .write (.ind 1) (.reg 4) s = .ok (l₁, l₂) s₁ ∧ readLoc .w l₁ s₁ = .trap n a s₂) ∧
    (∃ (s s₁ s₀ s₂ : State) (l₁ l₂ : Loc) (v : Word) (n : Nat) (a : Word), s.Repeats 0 ∧
      namesRegister s.ps.repIndex (.movw (.reg 4) (.ind 1)) = false ∧
        evalBoth .w .w .write (.reg 4) (.ind 1) s = .ok (l₁, l₂) s₁ ∧ readLoc .w l₁ s₁ = .ok v s₀ ∧
          writeLoc .w l₂ v s₀ = .trap n a s₂) ∧
    ∃ (s s₁ s₂ s₃ : State) (l₁ l₂ : Loc) (b : Word), s.Repeats 0 ∧
      namesRegister s.ps.repIndex (.divw (.reg 2) (.reg 4)) = false ∧
        evalBoth .w .w .modify (.reg 2) (.reg 4) s = .ok (l₁, l₂) s₁ ∧ readLoc .w l₁ s₁ = .ok 0 s₂ ∧
          readLoc .w l₂ s₂ = .ok b s₃ := by
  have full : ({ start [(3, 1), (1, 0xFFFFFFFD)] 0x4C000000 with cfg := atEnd.cfg } : State).Repeats 0 :=
    ⟨by decide, by decide, by decide, by decide⟩
  refine ⟨?_, ⟨_, _, _, _, _, _, _, full, by decide, rfl, rfl⟩, ⟨_, _, _, _, _, _, _, _, _, full, by decide, rfl, rfl, rfl⟩,
    ⟨repeating 0x4C000000, _, _, _, _, _, _, (repeats_of (by simp)).1, by decide, rfl, rfl, rfl⟩⟩
  intro x hx
  simp only [List.mem_cons, List.not_mem_nil, or_false] at hx
  rcases hx with rfl | rfl | rfl <;>
    exact ⟨repeating 0x4C000000, _, _, _, (repeats_of (by simp)).1, by decide, rfl⟩

/-- Under a repeat: REP of another register, BKPT, TRAP, RETI, RSET, WAIT and LDPR of PS. -/
theorem witness_repeatRuns_uncounted :
    let s := repeating 0x4C000000
    s.Repeats 0 ∧ s.Settled ∧ asyncNumber s.rset = none ∧
    (∀ p ∈ [1#2, 2, 3], 15 ≠ s.ps.repIndex ∧ (s.withPs { s.ps with rep := p, repReg := BitVec.ofNat 4 15 }).Settled) ∧
    (∃ t : State, enter 2 (s.pc + 1) (s.noteExecuted s.pc) = .ok () t ∧ t.bus = [] ∧ t.ueLatch = none ∧
      asyncNumber t = none) ∧
    (∃ (s₁ s₂ t : State) (l : Loc) (n : Byte), namesRegister s.ps.repIndex (.trap (.lit 63)) = false ∧
      evalRef .src 1 s.sp (s.pc + 2) (.lit 63) s = .ok l s₁ ∧ readLoc .b l s₁ = .ok n s₂ ∧
        enter n.toNat (pcNext (.trap (.lit 63)) s) (s₂.noteExecuted s.pc) = .ok () t ∧ t.bus = [] ∧ t.ueLatch = none ∧
          asyncNumber t = none) ∧
    (∃ (s₁ : State) (a : Word), returnFromInterrupt s = .ok a s₁ ∧ s₁.Settled ∧ 2048 ≤ s₁.sp.toNat) ∧
    ∃ (s₁ s₂ s₃ : State) (l₁ l₂ : Loc) (v : Word), namesRegister s.ps.repIndex (.ldpr (.reg 4) (.lit 1)) = false ∧
      evalBoth .w .b .look (.reg 4) (.lit 1) s = .ok (l₁, l₂) s₁ ∧ readLoc .w l₁ s₁ = .ok v s₂ ∧
        readLoc .b l₂ s₂ = .ok 1 s₃ ∧ (s₃.withPs (PsReg.ofWord s.cfg v)).Settled := by
  intro s
  have hq : Calm s.clearRep := quiet_of (by decide)
  exact ⟨(repeats_of (by simp)).1, settled_of (by decide), by decide +kernel,
    fun p _ => ⟨by decide, hq.stays (t := s) rfl rfl rfl rfl rfl rfl rfl rfl rfl _ ⟨rfl, rfl, rfl, rfl, rfl, rfl⟩⟩,
    ⟨entryState 2 0x1001 (s.noteExecuted 0x1000), enter_fits _ rfl (by decide) (by decide), rfl, by decide,
      by decide +kernel⟩,
    ⟨s, s, entryState 255 0x1002 (s.noteExecuted 0x1000), .lit 63, 255, by decide, rfl, rfl,
      enter_fits _ rfl (by decide) (by decide), rfl, by decide, by decide +kernel⟩,
    ⟨_, _, (returnFromInterrupt_eq_ok rfl).2 ⟨by decide, by decide, rfl, rfl⟩, settled_of (by decide +kernel),
      by decide +kernel⟩,
    ⟨s, s, s, .reg 4, .lit 1, 0, by decide, rfl, rfl, rfl, settled_of (by decide)⟩⟩

/-- A repeat by R3 before a branch under either order, the count at which it is executed for the last time; U as given. -/
def looping (order : RepBranchOrder) (ps : Word) : State :=
  { start [(3, if order = .testThenDecrement then 1 else 2)] ps with cfg := { Params.default with repBranch := order } }

/-- Every branch, a signed one with U clear and with U set, CALL, RET and RETP, under either order; and under
decrement-then-test a count of zero, which goes round. -/
theorem witness_repeatRuns_branches :
    (∀ order ∈ [RepBranchOrder.testThenDecrement, .decrementThenTest],
      let s := looping order 0x4C000000
      (∀ i ∈ [Instr.jmp (.lit 16), .bg (.lit 16), .call (.lit 16), .ret, .retp (.lit 4)], s.BranchRuns i) ∧
        (∃ (s₁ s₂ : State) (t : Word), evalTarget s.sp (s.pc + 2) (.lit 16) s.looped = .ok t s₁ ∧
          (true && s.ps.fU) = false ∧ s₁.Settled ∧ push4 (s.pc - 2) s₁ = .ok () s₂ ∧ s₂.Settled ∧ 2048 ≤ s₂.sp.toNat) ∧
        (∃ (s₁ : State) (t : Word), pop4 s.looped = .ok t s₁ ∧ s₁.Settled ∧ 2048 ≤ s₁.sp.toNat) ∧
        (∃ (s₁ s₂ s₃ : State) (l : Loc) (k t : Word), evalRef .src 4 s.sp (s.pc + 2) (.lit 4) s.looped = .ok l s₁ ∧
          readLoc .w l s₁ = .ok k s₂ ∧ pop4 s₂ = .ok t s₃ ∧ ({ s₃ with sp := s₃.sp + k } : State).Settled ∧
            2048 ≤ (s₃.sp + k).toNat) ∧
        let s := looping order 0x4C000010
        s.BranchRuns (.bg (.lit 16)) ∧ (true && s.ps.fU) = true ∧
          ∃ (s₁ : State) (t : Word), evalTarget s.sp (s.pc + 2) (.lit 16) s.looped = .ok t s₁) ∧
    (((looping .decrementThenTest 0x4C000000).setReg 3 0).BranchRuns (.jmp (.lit 16))) := by
  have runs (s : State) (i : Instr) (h : (decide (s.ps.rep = 1) &&
      decide (s.reg s.ps.repIndex ≠ if s.cfg.repBranch = .testThenDecrement then 0 else 1) &&
        !namesRegister s.ps.repIndex i) = true) : s.BranchRuns i := by
    simp only [Bool.and_eq_true, decide_eq_true_eq, Bool.not_eq_true'] at h
    have h1 : s.ps.rep = 1 := h.1.1
    exact ⟨⟨by simp [h1], by simp [h1], by simp [h1], h.1.2⟩, h.2⟩
  refine ⟨?_, runs _ _ (by decide)⟩
  intro order ho
  refine ⟨?_, ?_⟩
  · intro i hi
    simp only [List.mem_cons, List.not_mem_nil, or_false] at ho hi
    rcases ho with rfl | rfl <;> rcases hi with rfl | rfl | rfl | rfl | rfl <;> exact runs _ _ (by decide)
  simp only [List.mem_cons, List.not_mem_nil, or_false] at ho
  rcases ho with rfl | rfl <;>
    exact ⟨⟨_, State.pushed _ _, _, rfl, by decide, settled_of (by decide), push4_fits _ rfl (by decide),
        settled_of (by decide), by decide⟩,
      ⟨_, _, pop4_fits rfl (by decide), settled_of (by decide), by decide⟩,
      ⟨_, _, _, _, 4, _, rfl, rfl, pop4_fits rfl (by decide), settled_of (by decide), by decide⟩,
      runs _ _ (by decide), by decide, ⟨_, _, rfl⟩⟩

/-- The instruction in an undisturbed state; EI with a time out that it lets in, DI with one that it holds back. -/
theorem witness_flagInstructions :
    (∀ f ∈ [(fun q : PsReg => q), (fun q => { q with fC := true }), (fun q => { q with eIE := true })],
      (start [] 0).ps.rep = 0 ∧ ((start [] 0).withPs (f (start [] 0).ps)).Settled) ∧
    (let s := start [] 0x20000
     s.ps.rep = 0 ∧ s.bus = [] ∧ s.ps.eT = false ∧ s.ueLatch = none ∧
       asyncNumber (s.withPs { s.ps with eIE := true }) = some 13) ∧
    (let s := start [] 0x120000
     s.ps.rep = 0 ∧ s.bus = [] ∧ s.ps.eT = false ∧ s.ueLatch = none) := by
  refine ⟨?_, by decide, by decide⟩
  intro f hf
  simp only [List.mem_cons, List.not_mem_nil, or_false] at hf
  rcases hf with rfl | rfl | rfl <;> exact ⟨by decide, settled_of (by decide)⟩

/-- RSET with a corrected error pending, which it drops. -/
theorem witness_nodeInstructions :
    Calm (start [] 0) ∧
      (let s := { start [] 0x11001F with ceLatch := true }
       s.ps.rep = 0 ∧ s.bus = [] ∧ s.ps.eT = false ∧ asyncNumber s.rset = none) :=
  ⟨quiet_of (by decide), by decide +kernel⟩

/-- LDPR of SP at 2048 and of the last register; STPR of the last register. -/
theorem witness_processorRegisters :
    (∀ n ∈ [0#6, 12], ∃ (s s₁ s₂ s₃ s₄ : State) (l₁ l₂ : Loc) (v : Word) (k : Byte), s.ps.rep = 0 ∧
      evalBoth .w .b .look (.reg 1) (.lit n) s = .ok (l₁, l₂) s₁ ∧ readLoc .w l₁ s₁ = .ok v s₂ ∧
        readLoc .b l₂ s₂ = .ok k s₃ ∧ s₃.setProcReg k.toNat v = some s₄ ∧ s₄.Settled ∧ 2048 ≤ s₄.sp.toNat ∧
          s.bus = []) ∧
    (Params.default.portBit.toList.Nodup ∧ ∀ i, Params.default.portBit.get i ≠ 30) ∧
    ∃ (s s₁ s₂ s₄ : State) (l₁ l₂ : Loc) (k : Byte) (v : Word), s.ps.rep = 0 ∧
      evalBoth .b .w .write (.lit 12) (.reg 4) s = .ok (l₁, l₂) s₁ ∧ readLoc .b l₁ s₁ = .ok k s₂ ∧
        s₂.procReg k.toNat = some v ∧ writeLoc .w l₂ v s₂ = .ok () s₄ ∧ StaysSettled s.ps s₄ := by
  refine ⟨?_, by decide, ?_⟩
  · intro n hn
    simp only [List.mem_cons, List.not_mem_nil, or_false] at hn
    rcases hn with rfl | rfl
    · exact ⟨start [(1, 2048)] 0, _, _, _, _, .reg 1, .lit 0, _, 0, by decide, rfl, rfl, rfl, rfl,
        settled_of (by decide), by decide, rfl⟩
    · exact ⟨start [(1, 2048)] 0, _, _, _, _, .reg 1, .lit 12, _, 12, by decide, rfl, rfl, rfl, rfl,
        settled_of (by decide), by decide, rfl⟩
  · exact ⟨start [] 0, _, _, _, .lit 12, .reg 4, 12, _, by decide, rfl, rfl, rfl, rfl,
      (quiet_of (s := start [] 0) (by decide)).stays_writeReg _ _ _⟩

theorem witness_statusImage : Params.default.psLow.toList.Nodup := by decide

/-- The lowest stack an entry fits on, and the first and last interrupt. -/
theorem witness_entrySaves :
    ∀ n ∈ [0, 255], n < 256 ∧ ∃ (s t : State), s.bus = [] ∧ s.mem.wf = true ∧ enter n 0x1001 s = .ok () t := by
  intro n hn
  simp only [List.mem_cons, List.not_mem_nil, or_false] at hn
  rcases hn with rfl | rfl <;>
    exact ⟨by decide, stacked 8 0, _, rfl, by decide, enter_fits _ rfl (by decide) (by decide)⟩

/-- The lowest and the highest stack an entry fits on, with the last vector; the highest that RETI pops from. -/
theorem witness_entrySaves_complete :
    (∀ sp ∈ [8#32, 131072], let s := stacked sp 0
      s.bus = [] ∧ 8 ≤ s.sp.toNat ∧ s.sp.toNat ≤ s.cfg.memSize ∧ 8 * 255 + 8 ≤ s.cfg.memSize) ∧
    let s := stacked 131064 0
    s.bus = [] ∧ s.sp.toNat + 8 ≤ s.cfg.memSize ∧ s.sp.toNat + 8 ≤ 2 ^ 32 := by
  have fits {n : Nat} (h : n ≤ 131072) : n ≤ 131072 ∧ n ≤ 2 ^ 32 := ⟨h, by omega⟩
  refine ⟨?_, rfl, fits (by decide)⟩
  intro sp h
  simp only [List.mem_cons, List.not_mem_nil, or_false] at h
  rcases h with rfl | rfl <;> exact ⟨rfl, by decide, by decide, by decide⟩

theorem witness_returnRestores :
    ∃ (s t : State), s.cfg.psLow.toList.Nodup ∧ s.mem.wf = true ∧ enter 255 0x1001 s = .ok () t ∧ t.ps.rep = 0 ∧
      s.Settled ∧ 2048 ≤ s.sp.toNat :=
  ⟨stacked 2048 0x1F, entryState 255 0x1001 (stacked 2048 0x1F), by decide, by decide,
    enter_fits _ rfl (by decide) (by decide), by decide +kernel, settled_of (by decide), by decide⟩

theorem witness_softwareEntryReturn :
    (∃ s t : State, s.ps.rep = 0 ∧ enter 2 (s.pc + 1) (s.noteExecuted s.pc) = .ok () t ∧ t.bus = [] ∧ t.ueLatch = none ∧
      asyncNumber t = none) ∧
    (∃ (s s₁ s₂ t : State) (l : Loc) (n : Byte), s.ps.rep = 0 ∧
      evalRef .src 1 s.sp (s.pc + 2) (.lit 63) s = .ok l s₁ ∧ readLoc .b l s₁ = .ok n s₂ ∧
        enter n.toNat (pcNext (.trap (.lit 63)) s) (s₂.noteExecuted s.pc) = .ok () t ∧ t.bus = [] ∧ t.ueLatch = none ∧
          asyncNumber t = none) ∧
    ∃ (s s₁ : State) (a : Word), s.ps.rep = 0 ∧ returnFromInterrupt s = .ok a s₁ ∧ s₁.Settled ∧ 2048 ≤ s₁.sp.toNat ∧
      s.bus = [] :=
  ⟨⟨start [] 0, entryState 2 0x1001 ((start [] 0).noteExecuted 0x1000), by decide, enter_fits _ rfl (by decide) (by decide), rfl, by decide,
      by decide +kernel⟩,
    ⟨start [] 0, start [] 0, start [] 0, entryState 255 0x1002 ((start [] 0).noteExecuted 0x1000), .lit 63, 255, by decide, rfl, rfl,
      enter_fits _ rfl (by decide) (by decide), rfl, by decide, by decide +kernel⟩,
    ⟨stacked 2040 0, _, _, by decide, (returnFromInterrupt_eq_ok rfl).2 ⟨by decide, by decide, rfl, rfl⟩,
      settled_of (by decide +kernel), by decide +kernel, rfl⟩⟩

/-- Pushes and pops that leave SP below 2048, at 2047 where they can, in every shape of the statement. -/
theorem witness_stackOverflow :
    (∃ (s s₁ s₂ : State) (t : Word), s.ps.rep = 0 ∧ evalTarget s.sp (s.pc + 2) (.lit 16) s = .ok t s₁ ∧
      push4 (pcNext (.call (.lit 16)) s) s₁ = .ok () s₂ ∧ s₂.bus = [] ∧ s₂.sp.toNat < 2048) ∧
    (∃ (s s₁ : State) (t : Word), s.ps.rep = 0 ∧ s₁.bus = [] ∧ s₁.sp.toNat < 2048 ∧ pop4 s = .ok t s₁) ∧
    (∃ (s s₁ : State) (t : Word), s.ps.rep = 0 ∧ s₁.bus = [] ∧ s₁.sp.toNat < 2048 ∧
      returnFromInterrupt s = .ok t s₁) ∧
    (∃ (s s₁ s₂ s₃ : State) (l : Loc) (k t : Word), s.ps.rep = 0 ∧
      evalRef .src 4 s.sp (s.pc + 2) (.lit 4) s = .ok l s₁ ∧ readLoc .w l s₁ = .ok k s₂ ∧ pop4 s₂ = .ok t s₃ ∧
        s₃.bus = [] ∧ (s₃.sp + k).toNat < 2048) ∧
    (∃ (s s₁ s₂ s₃ : State) (l₁ l₂ : Loc) (v : Word), s.ps.rep = 0 ∧
      evalBoth .w .b .look (.reg 1) (.lit 0) s = .ok (l₁, l₂) s₁ ∧ readLoc .w l₁ s₁ = .ok v s₂ ∧
        readLoc .b l₂ s₂ = .ok 0 s₃ ∧ s₃.bus = [] ∧ v.toNat < 2048) ∧
    (∃ (s s₁ s₂ s₄ : State) (l₁ l₂ : Loc) (a : Word), s.ps.rep = 0 ∧
      evalBoth .w .w .write (.reg 1) .stk s = .ok (l₁, l₂) s₁ ∧ readLoc .w l₁ s₁ = .ok a s₂ ∧
        writeLoc .w l₂ a s₂ = .ok () s₄ ∧ s₄.bus = [] ∧ s₄.sp.toNat < 2048) ∧
    (∃ (s s₁ s₂ s₃ s₄ : State) (l₁ l₂ : Loc) (a b : Byte), s.ps.rep = 0 ∧
      evalBoth .b .b .modify .stk (.reg 4) s = .ok (l₁, l₂) s₁ ∧ readLoc .b l₁ s₁ = .ok a s₂ ∧
        readLoc .b l₂ s₂ = .ok b s₃ ∧ writeLoc .b l₂ (a + b) s₃ = .ok () s₄ ∧ s₄.bus = [] ∧ s₄.sp.toNat < 2048) ∧
    ∃ (s s₁ s₂ s₃ : State) (l₁ l₂ : Loc) (a b : Byte), s.ps.rep = 0 ∧
      evalBoth .b .b .look .stk (.reg 4) s = .ok (l₁, l₂) s₁ ∧ readLoc .b l₁ s₁ = .ok a s₂ ∧
        readLoc .b l₂ s₂ = .ok b s₃ ∧ s₃.bus = [] ∧ s₃.sp.toNat < 2048 :=
  ⟨⟨stacked 2051 0, _, _, _, by decide, rfl, push4_fits _ rfl (by decide), rfl, by decide⟩,
    ⟨stacked 2043 0, _, _, by decide, rfl, by decide, pop4_fits rfl (by decide)⟩,
    ⟨stacked 2039 0, _, _, by decide, rfl, by decide,
      (returnFromInterrupt_eq_ok rfl).2 ⟨by decide, by decide, rfl, rfl⟩⟩,
    ⟨stacked 2039 0, stacked 2039 0, stacked 2039 0, _, _, 4, _, by decide, rfl, rfl, pop4_fits rfl (by decide), rfl,
      by decide⟩,
    ⟨start [(1, 2047)] 0, _, _, _, .reg 1, .lit 0, _, by decide, rfl, rfl, rfl, rfl, by decide⟩,
    ⟨stacked 2051 0, _, _, _, .reg 1, .push, _, by decide, rfl, rfl, push4_fits _ rfl (by decide), rfl, by decide⟩,
    ⟨stacked 2046 0, _, _, _, _, .imm 0, .reg 4, 0, 0, by decide, rfl, rfl, rfl, rfl, rfl, by decide⟩,
    ⟨stacked 2046 0, _, _, _, .imm 0, .reg 4, 0, 0, by decide, rfl, rfl, rfl, rfl, by decide⟩⟩

/-- The traced instructions: one without references, a move, a branch, CALL, RET, and a RETI that sets T. -/
theorem witness_endOfInstruction :
    ((start [] 0x200000).ps.rep = 0 ∧ (start [] 0x200000).bus = [] ∧ (start [] 0x200000).ps.eT = true) ∧
    (∃ (s s₁ s₂ s₄ : State) (l₁ l₂ : Loc) (a : Word), s.ps.rep = 0 ∧
      evalBoth .w .w .write (.reg 1) .stk s = .ok (l₁, l₂) s₁ ∧ readLoc .w l₁ s₁ = .ok a s₂ ∧
        writeLoc .w l₂ a s₂ = .ok () s₄ ∧ s₄.bus = [] ∧ s.ps.eT = true ∧ 2048 ≤ s₄.sp.toNat) ∧
    (∃ (s s₁ : State) (t : Word), s.ps.rep = 0 ∧ evalTarget s.sp (s.pc + 2) (.lit 16) s = .ok t s₁ ∧
      (true && s.ps.fU) = false ∧ s₁.bus = [] ∧ s.ps.eT = true) ∧
    (∃ (s s₁ s₂ : State) (t : Word), s.ps.rep = 0 ∧ evalTarget s.sp (s.pc + 2) (.lit 16) s = .ok t s₁ ∧
      push4 (pcNext (.call (.lit 16)) s) s₁ = .ok () s₂ ∧ s₂.bus = [] ∧ s.ps.eT = true ∧ 2048 ≤ s₂.sp.toNat) ∧
    (∃ (s s₁ : State) (t : Word), s.ps.rep = 0 ∧ pop4 s = .ok t s₁ ∧ s₁.bus = [] ∧ s.ps.eT = true ∧
      2048 ≤ s₁.sp.toNat) ∧
    ∃ (s s₁ : State) (a : Word), s.ps.rep = 0 ∧ returnFromInterrupt s = .ok a s₁ ∧ s₁.bus = [] ∧ s₁.ps.eT = true ∧
      2048 ≤ s₁.sp.toNat :=
  ⟨by decide,
    ⟨stacked 2052 0x200000, _, _, _, .reg 1, .push, _, by decide, rfl, rfl, push4_fits _ rfl (by decide), rfl, by decide,
      by decide⟩,
    ⟨start [] 0x200000, start [] 0x200000, _, by decide, rfl, by decide, rfl, by decide⟩,
    ⟨stacked 2052 0x200000, _, (stacked 2052 0x200000).pushed 0x1002, _, by decide, rfl, push4_fits _ rfl (by decide), rfl,
      by decide, by decide⟩,
    ⟨stacked 2044 0x200000, _, _, by decide, pop4_fits rfl (by decide), rfl, by decide, by decide⟩,
    ⟨filled (stacked 2040 0) [(2044, 4, 0x200000)], _, _, by decide,
      (returnFromInterrupt_eq_ok rfl).2 ⟨by decide, by decide, rfl, rfl⟩, rfl, by decide +kernel, by decide +kernel⟩⟩

/-- Nothing present, a time out, a corrected error, an input, an uncorrectable error. -/
theorem witness_selection :
    asyncNumber { start [] 0x120000 with idle := true, tr := 1 } = none ∧
      asyncNumber { start [] 0x120000 with idle := true } = some 13 ∧
      asyncNumber { start [] 0x110000 with idle := true, ceLatch := true } = some 14 ∧
      asyncNumber { start [] 0x140000 with idle := true, ie := 0x80000000 } = some 95 ∧
      { start [] 0 with idle := true, ueLatch := some (0x4000, 4) }.ueLatch = some (0x4000, 4) := by decide

/-- The first and the last input and output port. -/
theorem witness_channelLoads :
    (∀ p ∈ [0, 9, 31], (inIndex p).isSome = true) ∧ (∀ p ∈ [32, 41, 63], (outIndex p).isSome = true) ∧
    (∀ p ∈ [10, 30, 42, 62, 64], inIndex p = none ∧ outIndex p = none) ∧
    (∃ (s s₁ s₂ s₃ : State) (l₁ l₂ : Loc) (a p : Word), s.ps.rep = 0 ∧
      evalBoth .w .w .look (.reg 1) (.imm 63) s = .ok (l₁, l₂) s₁ ∧ readLoc .w l₁ s₁ = .ok a s₂ ∧
        readLoc .w l₂ s₂ = .ok p s₃ ∧ outIndex p.toNat = some 10 ∧ (s₃.outPort 10).inBroadcast = false ∧
          (s₃.setOut 10 { s₃.outPort 10 with address := a &&& 0xFFFFFFFE }).Settled ∧ s.bus = []) ∧
    (∃ (s s₁ s₂ s₃ : State) (l₁ l₂ : Loc) (a p : Word), s.ps.rep = 0 ∧
      evalBoth .w .w .look (.reg 1) (.lit 0) s = .ok (l₁, l₂) s₁ ∧ readLoc .w l₁ s₁ = .ok a s₂ ∧
        readLoc .w l₂ s₂ = .ok p s₃ ∧ inIndex p.toNat = some 0 ∧
          (s₃.setIn 0 { s₃.inPort 0 with address := a &&& 0xFFFFFFFE }).Settled) ∧
    ∃ (s s₁ s₂ s₃ : State) (l₁ l₂ : Loc) (n : Word) (p : Byte), s.ps.rep = 0 ∧
      evalBoth .w .b .look (.reg 1) (.lit 31) s = .ok (l₁, l₂) s₁ ∧ readLoc .w l₁ s₁ = .ok n s₂ ∧
        readLoc .b l₂ s₂ = .ok p s₃ ∧ inIndex p.toNat = some 10 ∧
        (s₃.setIn 10 { s₃.inPort 10 with count := n &&& 0xFFFFFFFE, perr := false, ovr := false }).Settled ∧
        (s₃.setOut 10 { s₃.outPort 10 with count := n &&& 0xFFFFFFFE, bcast := false }).Settled ∧ s.bus = [] :=
  ⟨by decide, by decide, by decide,
    ⟨start [] 0, _, _, _, .reg 1, .imm 63, _, 63, by decide, rfl, rfl, rfl, by decide, by decide, settled_of (by decide),
      rfl⟩,
    ⟨start [] 0, _, _, _, .reg 1, .lit 0, _, 0, by decide, rfl, rfl, rfl, by decide, settled_of (by decide)⟩,
    ⟨start [(1, 7)] 0, _, _, _, .reg 1, .lit 31, _, 31, by decide, rfl, rfl, rfl, by decide, settled_of (by decide),
      settled_of (by decide), rfl⟩⟩

/-- Ports 32 and 63 as a group. -/
theorem witness_broadcastLoads :
    Params.default.portBit = #v[0, 1, 2, 3, 4, 5, 6, 7, 8, 9, 31] ∧
    ∃ (s s₁ s₂ s₃ : State) (l₁ l₂ : Loc) (a m : Word), s.ps.rep = 0 ∧
      evalBoth .w .w .look (.reg 1) (.imm 0x80000001) s = .ok (l₁, l₂) s₁ ∧ readLoc .w l₁ s₁ = .ok a s₂ ∧
        readLoc .w l₂ s₂ = .ok m s₃ ∧ badMask s.cfg m = false ∧ broadcasting s₃ = false ∧ maskReady s₃ m = true ∧
        maskAligned s₃ m = true ∧
        (s₃.mapOut fun i p => if inMask s.cfg m i then { p with address := a &&& 0xFFFFFFFE } else p).Settled ∧
        (s₃.mapOut fun i p =>
          { p with
              count := if inMask s.cfg m i then a &&& 0xFFFFFFFE else p.count
              bcast := inMask s.cfg m i && (a &&& 0xFFFFFFFE) != 0 }).Settled ∧ s.bus = [] :=
  ⟨rfl, start [(1, 16)] 0, start [(1, 16)] 0, start [(1, 16)] 0, start [(1, 16)] 0, .reg 1, .imm 0x80000001, 16, 0x80000001,
    by decide, rfl, rfl, rfl, by decide, by decide, by decide, by decide, settled_of (by decide), settled_of (by decide),
    rfl⟩

/-- A channel stores to the byte after the instruction's second while a pointer is read. -/
def codeStruck : State :=
  { (start [(1, 0x5000)] 0).setIn 0 ⟨0x1002, 2, 0xC3, true, false, false⟩ with bus := [[.store 0]] }

/-- Register 13, ports 10 and 64, mask bit 10, a port that is not ready, a broadcast in progress, differing addresses, a
member of a broadcast, the count register named under a repeat, an entry below and above the memory, and a byte
written just ahead of pc. -/
theorem witness_refused :
    (∃ (s s₁ s₂ s₃ : State) (l₁ l₂ : Loc) (v : Word) (n : Byte), s.ps.rep = 0 ∧ 12 < n.toNat ∧
      evalBoth .w .b .look (.reg 1) (.lit 13) s = .ok (l₁, l₂) s₁ ∧ readLoc .w l₁ s₁ = .ok v s₂ ∧
        readLoc .b l₂ s₂ = .ok n s₃) ∧
    (∃ (s s₁ s₂ : State) (l₁ l₂ : Loc) (n : Byte), s.ps.rep = 0 ∧ 12 < n.toNat ∧
      evalBoth .b .w .write (.lit 13) (.reg 4) s = .ok (l₁, l₂) s₁ ∧ readLoc .b l₁ s₁ = .ok n s₂) ∧
    (∀ p ∈ [10, 30, 42, 62, 64], inIndex p = none ∧ outIndex p = none) ∧
    badMask Params.default 0x400 = true ∧ badMask Params.default 0x40000000 = true ∧ badMask Params.default 1 = false ∧
    maskReady ((start [] 0).setOut 0 ⟨0, 2, false, []⟩) 1 = false ∧
    broadcasting ((start [] 0).setOut 0 ⟨0, 2, true, []⟩) = true ∧
    maskAligned ((start [] 0).setOut 0 ⟨2, 0, false, []⟩) 3 = false ∧
    (let s := (start [] 0).setOut 0 ⟨0, 2, true, []⟩
     s.ps.rep = 0 ∧ outIndex 32 = some 0 ∧ (s.outPort 0).inBroadcast = true ∧
       (∃ l s₁, evalBoth .w .w .look (.reg 1) (.imm 32) s = .ok l s₁) ∧
       ∃ l s₁, evalBoth .w .b .look (.reg 1) (.imm 32) s = .ok l s₁) ∧
    (let s := start [(3, 1)] 0x4C000000
     s.ps.rep ≠ 0 ∧ repeatEnds s = false ∧ namesRegister s.ps.repIndex (.jmp (.reg 3)) = true ∧
       s.cfg.repBranch = .testThenDecrement) ∧
    ((stacked 7 0).sp.toNat < 8 ∧ (stacked 131073 0).cfg.memSize < (stacked 131073 0).sp.toNat ∧
      (start [] 0).cfg.memSize < 8 * 16384 + 8) ∧
    (let s := { (start [] 0).placed [0x44, 0xC1, 0xC2] with fetch := ⟨[0x1001], [], []⟩ }
     s.idle = false ∧ s.pastEnd = false ∧ s.events = [] ∧
       decode s.cfg (fetchBytes s) = .ok (.addw (.reg 1) (.reg 2), List.replicate 16 0) ∧
       staleByte s (fetchedFirst (.addw (.reg 1) (.reg 2)) s) = some 0x1001) ∧
    (∃ (s s₁ : State) (l : Loc), s.ps.rep = 0 ∧ evalRef .src 4 s.sp (s.pc + 2) (.autoIncInd 1) s = .ok l s₁ ∧
      s₁.fetchFresh 0x1002 = false ∧ s.pc.toNat + 1 + (Ref.autoIncInd 1).length (.value .w) = 0x1002 ∧
        0x1002 < 0x1002 + (Ref.reg 2).length (.value .w)) ∧
    (∃ (s s₁ : State) (v : Word), s.ps.rep = 0 ∧ evalTarget s.sp (s.pc + 2) (.autoIncInd 1) s = .ok v s₁ ∧
      s₁.fetchFresh 0x1002 = false ∧ s.pc.toNat + 1 + (Ref.autoIncInd 1).length .addr = 0x1002 ∧
        0x1002 < 0x1002 + (Ref.reg 2).length (.value .w)) :=
  ⟨⟨start [] 0, _, _, _, .reg 1, .lit 13, _, 13, by decide, by decide, rfl, rfl, rfl⟩,
    ⟨start [] 0, _, _, .lit 13, .reg 4, 13, by decide, by decide, rfl, rfl⟩, by decide, by decide, by decide, by decide,
    by decide, by decide, by decide, ⟨by decide, by decide, by decide, ⟨_, _, rfl⟩, ⟨_, _, rfl⟩⟩, by decide, by decide,
    by decide +kernel,
    ⟨codeStruck, _, _, by decide, rfl, by decide +kernel, by decide, by decide⟩,
    ⟨codeStruck, _, _, by decide, rfl, by decide +kernel, by decide, by decide⟩⟩

/-- R1 and SP at the last Word that is not all in memory, and the first address that is not. -/
def overMemory (a : Word) : State := { start [(1, a)] 0 with sp := a }

/-- Words that begin just inside memory and just past it: an operand, a pointer, a pop, a push, also one that wraps below
0, and a fetch. -/
theorem witness_refused_absent :
    (∀ a ∈ [0x1FFFD#32, 0x20000, 0xFFFFFFFF], let s := overMemory a
      s.cfg.memSize < 2 ^ 32 ∧ s.cfg.memSize < a.toNat + 4 ∧ s.cfg.memSize < (s.reg 1).toNat + 4 ∧
        s.cfg.memSize < s.sp.toNat + 4 ∧ 0 ≤ ((s.reg 1).toNat : Int) + (0#32).toInt ∧
        ((s.reg 1).toNat : Int) + (0#32).toInt < 2 ^ 32 ∧ s.cfg.memSize < (s.reg 1 + 0#32).toNat + 4) ∧
      (∀ x ∈ [(OpType.b, 0x20000#32), (.h, 0x1FFFF), (.w, 0x1FFFD), (.r, 0x1FFFD), (.l, 0x1FFF9)],
        (start [] 0).cfg.memSize < x.2.toNat + x.1.len) ∧
      (∀ x ∈ [(OpType.b, 0x20001#32), (.h, 1), (.w, 3), (.r, 0x20001), (.l, 7)],
        (start [] 0).cfg.memSize < (x.2 - BitVec.ofNat 32 x.1.len).toNat + x.1.len) ∧
      (∀ sp ∈ [3#32, 0x20001], (stacked sp 0).cfg.memSize < ((stacked sp 0).sp - 4).toNat + 4) ∧
      ∀ pc ∈ [0x20000#32, 0xFFFFFFFF], let s := { start [] 0 with pc := pc }
        s.cfg.memSize < 2 ^ 32 ∧ s.cfg.memSize ≤ s.pc.toNat ∧ s.idle = false ∧ s.pastEnd = false ∧ s.events = [] := by
  refine ⟨?_, by decide, by decide, ?_, ?_⟩
  · intro a h
    simp only [List.mem_cons, List.not_mem_nil, or_false] at h
    rcases h with rfl | rfl | rfl <;>
      exact ⟨by decide, by decide, by decide, by decide, by decide, by decide, by decide⟩
  · intro sp h
    simp only [List.mem_cons, List.not_mem_nil, or_false] at h
    rcases h with rfl | rfl <;> decide
  · intro pc h
    simp only [List.mem_cons, List.not_mem_nil, or_false] at h
    rcases h with rfl | rfl <;> exact ⟨by decide, by decide, rfl, rfl, rfl⟩

/-- The evaluations, reads and stores that an absent address ends, in each instruction of the statement. -/
theorem witness_refused_ends :
    (overMemory 0x1FFFD).ps.rep = 0 ∧
    (∀ role ∈ [Role.write, .modify, .look], ∃ f, evalBoth .w .w role (.autoIncInd 1) (.reg 4) (overMemory 0x1FFFD) = .fault f) ∧
    (∃ f, evalTarget 0 0x1002 (.autoIncInd 1) (overMemory 0x1FFFD) = .fault f) ∧
    (∃ (s s₀ : State) (t : Word) (f : Fault), s.ps.rep = 0 ∧ evalTarget s.sp (s.pc + 2) (.lit 16) s = .ok t s₀ ∧
      push4 (pcNext (.call (.lit 16)) s) s₀ = .fault f) ∧
    (∃ f, pop4 (overMemory 0x1FFFD) = .fault f) ∧
    (∀ role ∈ [Role.write, .modify, .look], ∃ (l₁ l₂ : Loc) (s₁ : State) (f : Fault),
      evalBoth .w .w role (.ind 1) (.reg 4) (overMemory 0x1FFFD) = .ok (l₁, l₂) s₁ ∧ readLoc .w l₁ s₁ = .fault f) ∧
    (∃ (l₁ l₂ : Loc) (s₁ s₀ : State) (v : Word) (f : Fault),
      evalBoth .w .w .write (.reg 4) (.ind 1) (overMemory 0x1FFFD) = .ok (l₁, l₂) s₁ ∧ readLoc .w l₁ s₁ = .ok v s₀ ∧
        writeLoc .w l₂ v s₀ = .fault f) ∧
    ∀ role ∈ [Role.modify, .look], ∃ (l₁ l₂ : Loc) (s₁ s₀ : State) (v : Word) (f : Fault),
      evalBoth .w .w role (.reg 4) (.ind 1) (overMemory 0x1FFFD) = .ok (l₁, l₂) s₁ ∧ readLoc .w l₁ s₁ = .ok v s₀ ∧
        readLoc .w l₂ s₀ = .fault f := by
  refine ⟨by decide, ?_, ⟨_, rfl⟩, ⟨overMemory 3, _, _, _, by decide, rfl, rfl⟩, ⟨_, rfl⟩, ?_, ⟨_, _, _, _, _, _, rfl, rfl, rfl⟩, ?_⟩
  · intro role hr
    simp only [List.mem_cons, List.not_mem_nil, or_false] at hr
    rcases hr with rfl | rfl | rfl <;> exact ⟨_, rfl⟩
  · intro role hr
    simp only [List.mem_cons, List.not_mem_nil, or_false] at hr
    rcases hr with rfl | rfl | rfl <;> exact ⟨_, _, _, _, rfl, rfl⟩
  · intro role hr
    simp only [List.mem_cons, List.not_mem_nil, or_false] at hr
    rcases hr with rfl | rfl <;> exact ⟨_, _, _, _, _, _, rfl, rfl, rfl⟩

/-- Channels at the first halfword past memory, the host there, and a channel's step there within an instruction. -/
theorem witness_refused_agents :
    (let s := (start [] 0).setOut 0 ⟨0x20000, 2, false, []⟩
     (s.outPort 0).count ≠ 0 ∧ (s.outPort 0).bcast = false ∧ linkRoom s 0 = true ∧
       s.cfg.memSize < (s.outPort 0).address.toNat + 2) ∧
    (let s := (start [] 0).setIn 10 ⟨0x20000, 2, 7, true, false, false⟩
     (s.inPort 10).full = true ∧ (s.inPort 10).count ≠ 0 ∧ s.cfg.memSize < (s.inPort 10).address.toNat + 2 ∧
       (∃ f, agentStep (.store 10) s = .fault f) ∧ checkAccess s.cfg.memSize 0x1FFFC 4 = .present ∧
       (∃ f, letAgents { s with bus := [[.store 10]] } = .fault f) ∧
       ∃ f, letAgents (({ s with bus := [[.store 10]] } : State).noteWrite 0x1FFFC 4) = .fault f) ∧
    (let s := ((start [] 0).setOut 0 ⟨0x20000, 2, true, []⟩).setOut 10 ⟨0x20000, 2, true, []⟩
     broadcastGroup s = [0, 10] ∧ (s.outPort 0).count ≠ 0 ∧ (∀ j ∈ [0, 10], linkRoom s j = true) ∧
       s.cfg.memSize < (s.outPort 0).address.toNat + 2) ∧
    onBoard.cfg.ioBoard = true ∧ onBoard.cfg.memSize < 2 * 65536 + 2 :=
  ⟨by decide, ⟨by decide, by decide, by decide, ⟨_, rfl⟩, by decide, ⟨_, rfl⟩, ⟨_, rfl⟩⟩, by decide, by decide, by decide⟩

/-- The last halfword of a message from the end of memory; a group of two. -/
theorem witness_outputSteps :
    (let s := (start [] 0).setOut 0 ⟨0x1FFFE, 2, false, [5]⟩
     (s.outPort 0).count ≠ 0 ∧ (s.outPort 0).bcast = false ∧ s.cfg.wiring.get 0 = .linked ∧
       (s.outPort 0).link.length < s.cfg.linkDepth ∧ (s.outPort 0).address.toNat + 2 ≤ s.cfg.memSize) ∧
    (let s := ((start [] 0).setOut 0 ⟨0x1FFFE, 2, true, []⟩).setOut 10 ⟨0x1FFFE, 2, true, []⟩
     broadcastGroup s = [0, 10] ∧ (s.outPort 0).count ≠ 0 ∧ (∀ j ∈ [0, 10], linkRoom s j = true) ∧
       (s.outPort 0).address.toNat + 2 ≤ s.cfg.memSize) := by decide

theorem witness_inputSteps :
    Params.default.inWired.get 0 = true ∧ Params.default.inWired.get 10 = true ∧ Params.default.inWired.get 6 = false ∧
    let s := (start [] 0).setIn 10 ⟨0x1FFFE, 2, 0xBEEF, true, false, false⟩
    s.mem.wf = true ∧ (s.inPort 10).full = true ∧ (s.inPort 10).count ≠ 0 ∧
      (s.inPort 10).address.toNat + 2 ≤ s.cfg.memSize := by decide

/-- A channel's store before the second access of a Word, at an even and at an odd address. -/
theorem witness_interleaving :
    ∀ a ∈ [0x5000#32, 0x5001], ∃ s t₁ t₂ t₃ : State, checkAccess s.cfg.memSize a.toNat 4 = .present ∧
      letAgents s = .next t₁ ∧ letAgents t₁ = .next t₂ ∧ letAgents t₂ = .next t₃ ∧ s.bus = [[], [.store 0]] ∧
        ∃ u₁ u₂, letAgents (s.noteWrite a.toNat 4) = .next u₁ ∧
          letAgents { u₁ with mem := u₁.mem.writeN a.toNat 2 7 } = .next u₂ := by
  intro a ha
  simp only [List.mem_cons, List.not_mem_nil, or_false] at ha
  rcases ha with rfl | rfl <;>
    exact ⟨{ start [] 0 with bus := [[], [.store 0]] }, _, _, _, by decide, rfl, rfl, rfl, rfl, _, _, rfl, rfl⟩

end Sys2Proof.Tests
end

/-!
Register Direct operands (R23, R160): what a General register, or the pair of a Longreal, holds after an operand of
each type is written to it.
-/
namespace Sys2Proof.Machine

open Sys2Proof

theorem setWidth_signExtend_self {k m : Nat} (v : BitVec k) (h : k ≤ m) : (v.signExtend m).setWidth k = v := by
  ext i hi
  simp [BitVec.getElem_signExtend, hi, Nat.lt_of_lt_of_le hi h]

/-- The two Words of a Longreal, put together again. -/
theorem longrealHalves_append (v : BitVec 64) : v.extractLsb' 32 32 ++ v.extractLsb' 0 32 = v :=
  (BitVec.extractLsb'_append_extractLsb'_eq_extractLsb' rfl).trans BitVec.extractLsb'_eq_self

theorem nextReg_ne (n : Fin 16) : n + 1 ≠ n := by omega

section
variable (n : Fin 16) (s : State)

theorem reg_writeReg_byte (v : Byte) : (writeReg .b n v s).reg n = v.signExtend 32 :=
  State.reg_setReg_same s n _

theorem reg_writeReg_half (v : Half) : (writeReg .h n v s).reg n = v.signExtend 32 :=
  State.reg_setReg_same s n _

theorem reg_writeReg_word (v : Word) : (writeReg .w n v s).reg n = v :=
  State.reg_setReg_same s n _

theorem reg_writeReg_real (v : Word) : (writeReg .r n v s).reg n = v :=
  State.reg_setReg_same s n _

/-- The store of the high part goes to another register: the pair never overlaps itself, R0 following R15. -/
theorem reg_writeReg_long_low (v : BitVec 64) : (writeReg .l n v s).reg n = v.extractLsb' 0 32 :=
  calc (writeReg .l n v s).reg n
    _ = (s.setReg n (v.setWidth 32)).reg n := State.reg_setReg_other _ (nextReg_ne n)
    _ = v.setWidth 32 := State.reg_setReg_same s n _
    _ = v.extractLsb' 0 32 := BitVec.setWidth_eq_extractLsb' (by decide)

theorem reg_writeReg_long_high (v : BitVec 64) : (writeReg .l n v s).reg (n + 1) = v.extractLsb' 32 32 :=
  State.reg_setReg_same _ (n + 1) _

end

/-- What is written to a register is read back at the same type. -/
theorem readReg_writeReg (t : OpType) (n : Fin 16) (v : BitVec t.bits) (s : State) :
    readReg t n (writeReg t n v s) = v := by
  cases t with
  | b => exact (congrArg (BitVec.setWidth 8) (reg_writeReg_byte n s v)).trans (setWidth_signExtend_self v (by decide))
  | h => exact (congrArg (BitVec.setWidth 16) (reg_writeReg_half n s v)).trans (setWidth_signExtend_self v (by decide))
  | w => exact reg_writeReg_word n s v
  | r => exact reg_writeReg_real n s v
  | l =>
    have hpair : readReg .l n (writeReg .l n v s) = v.extractLsb' 32 32 ++ v.extractLsb' 0 32 :=
      congrArg₂ (· ++ ·) (reg_writeReg_long_high n s v) (reg_writeReg_long_low n s v)
    exact hpair.trans (longrealHalves_append v)

/-- Settles O12: the values written, type by type, then `readReg_writeReg` and the frame `writeReg_other`. -/
theorem registerOperands : Obligations.RegisterOperands :=
  ⟨fun _ _ => ⟨rfl, rfl, rfl, rfl, rfl⟩, fun n v s => reg_writeReg_byte n s v, fun n v s => reg_writeReg_half n s v,
    fun n v s => ⟨reg_writeReg_word n s v, reg_writeReg_real n s v⟩,
    fun n v s => ⟨reg_writeReg_long_low n s v, reg_writeReg_long_high n s v⟩, readReg_writeReg,
    fun _ _ _ _ _ => writeReg_other⟩

end Sys2Proof.Machine

/-!
The integer comparisons CMPB, CMPH and CMPW (R227 to R229): their opcodes stand in row 3 of the opcode map, and each is
`flagsBody` around `compareFlags` at its width.
-/
namespace Sys2Proof.Machine

open Sys2Proof

theorem renameRow_of_row_lt {b : Byte} (h : b.toNat / 16 < 9) (to9 toA toB : Nat) : renameRow to9 toA toB b = b := by
  unfold renameRow
  dsimp only
  split
  · split
    case h_1 e => omega
    case h_2 e => omega
    case h_3 e => omega
    case h_4 => rfl
  · rfl

/-- DIV_ROW_ORDER renames rows 9, A and B only (R121): an opcode in a lower-numbered row is encoded as the map
prints it. -/
theorem memOpcode_of_row_lt (cfg : Params) {b : Byte} (h : b.toNat / 16 < 9) : memOpcode cfg b = b := by
  unfold memOpcode
  split
  · rfl
  · exact renameRow_of_row_lt h 11 9 10

/-- The first byte of an instruction whose opcode is in a row below 9 is that opcode, whatever the parameters (R110). -/
theorem head?_encode_of_row_lt (cfg : Params) {i : Instr} {b : Byte} (hi : i.parts.opcode = b)
    (hb : b.toNat / 16 < 9) : (encode cfg i).head? = some b := by
  have hmem : memOpcode cfg i.parts.opcode = b := by rw [hi, memOpcode_of_row_lt cfg hb]
  exact congrArg some hmem

section
variable (src des : Ref) (s : State)

theorem exec_cmpb :
    exec (.cmpb src des) s = runPlain (.cmpb src des) (flagsBody .b (compareFlags s.ps) src des) s := rfl

theorem exec_cmph :
    exec (.cmph src des) s = runPlain (.cmph src des) (flagsBody .h (compareFlags s.ps) src des) s := rfl

theorem exec_cmpw :
    exec (.cmpw src des) s = runPlain (.cmpw src des) (flagsBody .w (compareFlags s.ps) src des) s := rfl

end

/-- Settles O24: the opcode by `head?_encode_of_row_lt`, the flags and the frame by `Compares.of`; the flags of the
statement are `compareFlags` written out. -/
theorem integerCompares : Obligations.IntegerCompares := by
  unfold Obligations.IntegerCompares
  simp only [List.forall_mem_cons, List.not_mem_nil, false_imp_iff, implies_true, and_true]
  refine ⟨⟨fun cfg _ _ => ?_, Compares.of exec_cmpb⟩, ⟨fun cfg _ _ => ?_, Compares.of exec_cmph⟩,
    ⟨fun cfg _ _ => ?_, Compares.of exec_cmpw⟩⟩
  · exact head?_encode_of_row_lt cfg rfl (by decide)
  · exact head?_encode_of_row_lt cfg rfl (by decide)
  · exact head?_encode_of_row_lt cfg rfl (by decide)

end Sys2Proof.Machine

/-!
AND, OR, XOR, NOT and BIT (R260 to R276): each is the body of its shape around `logicCalc` or `bitFlags`, the same at
each of the three widths, and signals nothing.
-/
namespace Sys2Proof.Machine

open Sys2Proof

theorem forall_mem_triple {α : Type} {P : α → Prop} {x y z : α} (hx : P x) (hy : P y) (hz : P z) :
    ∀ p ∈ [x, y, z], P p :=
  List.forall_mem_cons.2 ⟨hx, List.forall_mem_cons.2 ⟨hy, List.forall_mem_singleton.2 hz⟩⟩

theorem quietSignal_none (p : PsReg) : quietSignal .none p = true := rfl

/-! The meaning of each operation, at its three widths. -/

theorem exec_bit : ∀ p ∈ [(OpType.b, Instr.bitb), (.h, .bith), (.w, .bitw)], ∀ src des s,
    exec (p.2 src des) s = runPlain (p.2 src des) (flagsBody p.1 (bitFlags s.ps) src des) s :=
  forall_mem_triple (fun _ _ _ => rfl) (fun _ _ _ => rfl) (fun _ _ _ => rfl)

theorem exec_and : ∀ p ∈ [(OpType.b, Instr.andb), (.h, .andh), (.w, .andw)], ∀ src des s,
    exec (p.2 src des) s =
      runPlain (p.2 src des) (modifyBody p.1 p.1 (fun a b => logicCalc s.ps (a &&& b)) src des) s :=
  forall_mem_triple (fun _ _ _ => rfl) (fun _ _ _ => rfl) (fun _ _ _ => rfl)

theorem exec_or : ∀ p ∈ [(OpType.b, Instr.orb), (.h, .orh), (.w, .orw)], ∀ src des s,
    exec (p.2 src des) s =
      runPlain (p.2 src des) (modifyBody p.1 p.1 (fun a b => logicCalc s.ps (a ||| b)) src des) s :=
  forall_mem_triple (fun _ _ _ => rfl) (fun _ _ _ => rfl) (fun _ _ _ => rfl)

theorem exec_xor : ∀ p ∈ [(OpType.b, Instr.xorb), (.h, .xorh), (.w, .xorw)], ∀ src des s,
    exec (p.2 src des) s =
      runPlain (p.2 src des) (modifyBody p.1 p.1 (fun a b => logicCalc s.ps (a ^^^ b)) src des) s :=
  forall_mem_triple (fun _ _ _ => rfl) (fun _ _ _ => rfl) (fun _ _ _ => rfl)

theorem exec_not : ∀ p ∈ [(OpType.b, Instr.notb), (.h, .noth), (.w, .notw)], ∀ src des s,
    exec (p.2 src des) s = runPlain (p.2 src des) (writeBody p.1 p.1 (fun a => logicCalc s.ps (~~~a)) src des) s :=
  forall_mem_triple (fun _ _ _ => rfl) (fun _ _ _ => rfl) (fun _ _ _ => rfl)

section
variable {t : OpType} {mk : Ref → Ref → Instr}

/-- An instruction that stores a bitwise function of src and dsrc with `LogicFlags`, whichever function it is. -/
theorem Modifies.of_logicCalc (f : BitVec t.bits → BitVec t.bits → BitVec t.bits)
    (hexec : ∀ src des s, exec (mk src des) s =
      runPlain (mk src des) (modifyBody t t (fun a b => logicCalc s.ps (f a b)) src des) s) :
    Modifies t t mk (fun _ _ _ => True) (fun _ a b => f a b)
      (fun s a b => s.ps.withLogic (f a b).msb (f a b == 0)) :=
  Modifies.of (fun s a b => logicCalc s.ps (f a b)) hexec fun _ _ _ _ => ⟨.none, rfl, quietSignal_none _⟩

/-- As `Modifies.of_logicCalc` for a function of src alone. -/
theorem Writes.of_logicCalc (f : BitVec t.bits → BitVec t.bits)
    (hexec : ∀ src des s, exec (mk src des) s =
      runPlain (mk src des) (writeBody t t (fun a => logicCalc s.ps (f a)) src des) s) :
    Writes t t mk (fun _ _ => True) (fun _ a => f a) (fun s a => s.ps.withLogic (f a).msb (f a == 0)) :=
  Writes.of (fun s a => logicCalc s.ps (f a)) hexec fun _ _ _ => ⟨.none, rfl, quietSignal_none _⟩

end

/-- Settles O27: one shape each, from the meanings above; the flags of the statement are `PsReg.withLogic` written
out. -/
theorem logicals : Obligations.Logicals :=
  ⟨fun p hp => Compares.of (exec_bit p hp), fun p hp => Modifies.of_logicCalc (· &&& ·) (exec_and p hp),
    fun p hp => Modifies.of_logicCalc (· ||| ·) (exec_or p hp),
    fun p hp => Modifies.of_logicCalc (· ^^^ ·) (exec_xor p hp),
    fun p hp => Writes.of_logicCalc (~~~·) (exec_not p hp)⟩

end Sys2Proof.Machine

/-!
Find first one (R286 to R288): the search of `ffoCalc` ends at the lowest one bit of src, or nowhere where src is zero.
-/
namespace Sys2Proof.Machine

open Sys2Proof

section
variable {w n : Nat} {a : BitVec w}

theorem find?_lowestOne (hone : a.getLsbD n = true) (hlow : ∀ j, j < n → a.getLsbD j = false) :
    (List.range w).find? (fun i => a.getLsbD i) = some n :=
  List.find?_range_eq_some.2
    ⟨hone, List.mem_range.2 (BitVec.lt_of_getLsbD hone), fun j hj => by simp [hlow j hj]⟩

theorem ffoCalc_of_lowestOne (p : PsReg) (hone : a.getLsbD n = true) (hlow : ∀ j, j < n → a.getLsbD j = false) :
    ffoCalc p a = .done (BitVec.ofNat 8 n) (p.withLogic false false) .none 0 := by
  unfold ffoCalc
  rw [find?_lowestOne hone hlow]

theorem ffoCalc_zero (p : PsReg) :
    ffoCalc p (0 : BitVec w) = .done (BitVec.ofNat 8 w) (p.withLogic false true) .none 0 := by
  have hnone : (List.range w).find? (fun i => (0 : BitVec w).getLsbD i) = none := by simp
  unfold ffoCalc
  rw [hnone]

end

theorem exec_ffo : ∀ p ∈ [(OpType.b, Instr.ffob, 0x31#8), (.h, .ffoh, 0x33), (.w, .ffow, 0x35)], ∀ src des s,
    exec (p.2.1 src des) s = runPlain (p.2.1 src des) (writeBody p.1 .b (ffoCalc s.ps) src des) s :=
  forall_mem_triple (fun _ _ _ => rfl) (fun _ _ _ => rfl) (fun _ _ _ => rfl)

/-- The opcodes of FFO stand in row 3 of the opcode map, which `DIV_ROW_ORDER` does not rename. -/
theorem head?_encode_ffo : ∀ p ∈ [(OpType.b, Instr.ffob, 0x31#8), (.h, .ffoh, 0x33), (.w, .ffow, 0x35)],
    ∀ cfg src des, (encode cfg (p.2.1 src des)).head? = some p.2.2 :=
  forall_mem_triple (fun cfg _ _ => head?_encode_of_row_lt cfg rfl (by decide))
    (fun cfg _ _ => head?_encode_of_row_lt cfg rfl (by decide))
    (fun cfg _ _ => head?_encode_of_row_lt cfg rfl (by decide))

/-- Settles O30: the opcode by `head?_encode_ffo`, the value and the flags by the two cases of `ffoCalc`. -/
theorem findFirstOne : Obligations.FindFirstOne := by
  intro p hp
  refine ⟨head?_encode_ffo p hp, fun n => Writes.of _ (exec_ffo p hp) ?lowestOne, Writes.of _ (exec_ffo p hp) ?zero⟩
  case lowestOne =>
    rintro s a ⟨hone, hlow⟩
    exact ⟨.none, ffoCalc_of_lowestOne s.ps hone hlow, quietSignal_none _⟩
  case zero =>
    rintro s a rfl
    exact ⟨.none, ffoCalc_zero s.ps, quietSignal_none _⟩

end Sys2Proof.Machine

/-!
Integer Zero Divide (R203, R485): DIV and REM divide dsrc by src, DVR src by dsrc. Each is `modifyBody` around `divCalc`,
which raises interrupt 4 with PS as it was where the division has no result.
-/
namespace Sys2Proof.Machine

open Sys2Proof

theorem divCore_zero {w : Nat} (num : BitVec w) : divCore num 0 = none :=
  if_pos BitVec.toInt_zero

theorem remCore_zero {w : Nat} (num : BitVec w) : remCore num 0 = none :=
  if_pos BitVec.toInt_zero

/-! The meaning of each operation, at its three widths. -/

theorem exec_div : ∀ p ∈ [(OpType.b, Instr.divb), (.h, .divh), (.w, .divw)], ∀ src des s,
    exec (p.2 src des) s =
      runPlain (p.2 src des) (modifyBody p.1 p.1 (fun a b => divCalc s.ps (divCore b a)) src des) s :=
  forall_mem_triple (fun _ _ _ => rfl) (fun _ _ _ => rfl) (fun _ _ _ => rfl)

theorem exec_rem : ∀ p ∈ [(OpType.b, Instr.remb), (.h, .remh), (.w, .remw)], ∀ src des s,
    exec (p.2 src des) s =
      runPlain (p.2 src des) (modifyBody p.1 p.1 (fun a b => divCalc s.ps (remCore b a)) src des) s :=
  forall_mem_triple (fun _ _ _ => rfl) (fun _ _ _ => rfl) (fun _ _ _ => rfl)

theorem exec_dvr : ∀ p ∈ [(OpType.b, Instr.dvrb), (.h, .dvrh), (.w, .dvrw)], ∀ src des s,
    exec (p.2 src des) s =
      runPlain (p.2 src des) (modifyBody p.1 p.1 (fun a b => divCalc s.ps (divCore a b)) src des) s :=
  forall_mem_triple (fun _ _ _ => rfl) (fun _ _ _ => rfl) (fun _ _ _ => rfl)

/-- An instruction around `divCalc` takes Integer Zero Divide wherever its division has no result, PS and FR as they
were. -/
theorem ModifyRaises.of_divCalc {t : OpType} {mk : Ref → Ref → Instr} {when : BitVec t.bits → BitVec t.bits → Prop}
    (core : BitVec t.bits → BitVec t.bits → Option (IntResult t.bits))
    (hexec : ∀ src des s, exec (mk src des) s =
      runPlain (mk src des) (modifyBody t t (fun a b => divCalc s.ps (core a b)) src des) s)
    (hnone : ∀ a b, when a b → core a b = none) :
    ModifyRaises t t mk 4 (fun _ a b => when a b) (fun s _ _ => s.ps) (fun _ _ => none) :=
  ModifyRaises.of (fun s a b => divCalc s.ps (core a b)) hexec fun s a b h => congrArg (divCalc s.ps) (hnone a b h)

/-- Settles O22: whichever operand is the divisor, a zero there leaves `divCore` and `remCore` without a result, which
`ModifyRaises.of_divCalc` turns into interrupt 4. -/
theorem integerZeroDivide : Obligations.IntegerZeroDivide := by
  refine ⟨(List.forall_mem_append (l₁ := [(OpType.b, Instr.divb), (.h, .divh), (.w, .divw)])).2
    ⟨fun p hp => ?div, fun p hp => ?rem⟩, fun p hp => ?dvr⟩
  case div =>
    refine ModifyRaises.of_divCalc (fun a b => divCore b a) (exec_div p hp) ?_
    rintro _ num rfl
    exact divCore_zero num
  case rem =>
    refine ModifyRaises.of_divCalc (fun a b => remCore b a) (exec_rem p hp) ?_
    rintro _ num rfl
    exact remCore_zero num
  case dvr =>
    refine ModifyRaises.of_divCalc (fun a b => divCore a b) (exec_dvr p hp) ?_
    rintro num _ rfl
    exact divCore_zero num

end Sys2Proof.Machine

/-!
The invariant of the machine (R80, R455): every agent's step and every instruction keeps memory canonical and the
channels' address and count registers even.
-/
namespace Sys2Proof.Machine

open Sys2Proof

theorem getLsbD_zero_add_two (v : Word) : (v + 2).getLsbD 0 = v.getLsbD 0 := by
  simp only [BitVec.getLsbD, BitVec.toNat_add, Nat.testBit_zero]
  have h2 : (2 : Word).toNat = 2 := rfl
  rw [h2]; congr 1; apply propext; omega

theorem getLsbD_zero_sub_two (v : Word) : (v - 2).getLsbD 0 = v.getLsbD 0 := by
  rw [← getLsbD_zero_add_two (v - 2), BitVec.sub_add_cancel]

theorem getLsbD_zero_evenWord (v : Word) : (evenWord v).getLsbD 0 = false := by
  unfold evenWord
  rw [BitVec.getLsbD_and]
  exact Bool.and_false _

/-- The two registers of a channel are even (R455). -/
def EvenPair (a n : Word) : Prop := a.getLsbD 0 = false ∧ n.getLsbD 0 = false

theorem EvenPair.step {a n : Word} (h : EvenPair a n) : EvenPair (a + 2) (n - 2) :=
  ⟨(getLsbD_zero_add_two a).trans h.1, (getLsbD_zero_sub_two n).trans h.2⟩

theorem EvenPair.zero : EvenPair 0 0 := ⟨rfl, rfl⟩

/-- A state whose memory and channels are those of another meets the invariant with it. -/
theorem State.Inv.congr {s t : State} (h : s.Inv) (hm : t.mem = s.mem) (hi : t.inp = s.inp) (ho : t.out = s.out) :
    t.Inv where
  mem := by rw [hm]; exact h.mem
  inp i := by unfold State.inPort; rw [hi]; exact h.inp i
  out i := by unfold State.outPort; rw [ho]; exact h.out i

theorem State.Inv.withMem {s : State} (h : s.Inv) {m : Memory} (hm : m.wf = true) : State.Inv { s with mem := m } :=
  ⟨hm, h.inp, h.out⟩

theorem State.Inv.poke {s : State} (h : s.Inv) (a n v : Nat) : (s.poke a n v).Inv :=
  (h.withMem (Memory.wf_writeN n a v h.mem)).congr rfl rfl rfl

theorem State.Inv.setIn {s : State} (h : s.Inv) (i : Fin 11) {p : InPort} (hp : EvenPair p.address p.count) :
    (s.setIn i p).Inv where
  mem := h.mem
  inp j := by
    rw [State.inPort_setIn]
    split
    · exact hp
    · exact h.inp j
  out := h.out

theorem State.Inv.setOut {s : State} (h : s.Inv) (i : Fin 11) {p : OutPort} (hp : EvenPair p.address p.count) :
    (s.setOut i p).Inv where
  mem := h.mem
  inp := h.inp
  out j := by
    rw [State.outPort_setOut]
    split
    · exact hp
    · exact h.out j

theorem State.Inv.mapOut {s : State} (h : s.Inv) {f : Fin 11 → OutPort → OutPort}
    (hf : ∀ i p, EvenPair p.address p.count → EvenPair (f i p).address (f i p).count) : (s.mapOut f).Inv where
  mem := h.mem
  inp := h.inp
  out j := by rw [State.outPort_mapOut]; exact hf j _ (h.out j)

theorem State.Inv.broadcastSent {s : State} (h : s.Inv) (x : Half) : (s.broadcastSent x).Inv := by
  refine h.mapOut fun i p hp => ?_
  split
  · exact hp.step
  · exact hp

/-! The agents. -/

/-- Each agent's step keeps the invariant. -/
theorem agentStep_inv {e : Event} {s t : State} (h : s.Inv) (he : agentStep e s = .next t) : t.Inv := by
  cases e with
  | cpu => cases he; exact h
  | tick =>
    cases he
    unfold State.tick
    split
    · exact h
    · exact h.congr rfl rfl rfl
  | arrive p x bad =>
    cases he
    unfold State.arrives
    split
    · exact h.setIn p (h.inp p)
    · exact h
  | store p =>
    simp only [agentStep, storeStep] at he
    split at he
    · split at he <;> cases he
      exact (h.poke _ _ _).setIn p (EvenPair.step (h.inp p))
    · cases he; exact h
  | send p =>
    simp only [agentStep, sendStep] at he
    split at he
    · split at he <;> cases he
      exact h.setOut p (EvenPair.step (h.out p))
    · cases he; exact h
  | broadcast =>
    simp only [agentStep, broadcastStep] at he
    split at he
    · cases he; exact h
    · split at he
      · split at he <;> cases he
        exact h.broadcastSent _
      · cases he; exact h
  | deliver p => cases he; exact h.setOut p (h.out p)
  | correctedEcc => cases he; exact h.congr rfl rfl rfl
  | uncorrectable a n => cases he; exact h.congr rfl rfl rfl
  | hostWrite k x =>
    simp only [agentStep, hostWriteStep] at he
    split at he
    · cases he; exact h
    · split at he <;> cases he
      exact h.poke _ _ _
  | hostRead k =>
    simp only [agentStep, hostReadStep] at he
    split at he
    · cases he; exact h
    · split at he <;> cases he
      exact h.congr rfl rfl rfl

/-- What every agent's step keeps is kept by the agents' turn. -/
theorem runAgents_keeps {P : State → Prop} (hP : ∀ e s t, agentStep e s = .next t → P s → P t) :
    ∀ {es : List Event} {s t : State}, runAgents es s = .next t → P s → P t
  | [], _, _, h, hs => by cases h; exact hs
  | e :: es, s, t, h, hs => by
    unfold runAgents at h
    cases he : agentStep e s with
    | next u => rw [he] at h; exact runAgents_keeps hP h (hP e s u he hs)
    | fault f => rw [he] at h; cases h
    | refused r => rw [he] at h; cases h

theorem letAgents_keeps {P : State → Prop} (hP : ∀ e s t, agentStep e s = .next t → P s → P t)
    (hbus : ∀ (s : State) b, P s → P { s with bus := b }) {s t : State} (h : letAgents s = .next t) (hs : P s) : P t := by
  unfold letAgents at h
  split at h
  · cases h; exact hs
  · exact runAgents_keeps hP h (hbus _ _ hs)

/-! The instructions. -/

theorem stable_inv : Stable (fun _ => True) State.Inv where
  turn _ _ h hs := letAgents_keeps (fun _ _ _ he h => agentStep_inv h he) (fun _ _ h => h.congr rfl rfl rfl) h hs
  reg _ _ _ _ h := h.congr rfl rfl rfl
  sp _ _ _ h := h.congr rfl rfl rfl
  pc _ _ _ h := h.congr rfl rfl rfl
  ps _ _ h := h.congr rfl rfl rfl
  fr _ _ h := h.congr rfl rfl rfl
  mem _ a n v h := h.withMem (Memory.wf_writeN n a v h.mem)
  fetch _ _ h := h.congr rfl rfl rfl
  idle _ _ h := h.congr rfl rfl rfl
  free _ _ h := h.congr rfl rfl rfl
  ceLatch _ h := h.congr rfl rfl rfl
  ueDone _ h := h.congr rfl rfl rfl
  scramble _ a n _ h := (h.withMem (wf_scrambleBytes _ n a _ h.mem)).congr rfl rfl rfl

theorem State.Inv.rset {s : State} (h : s.Inv) : s.rset.Inv where
  mem := h.mem
  inp i := by rw [State.inPort_rset]; exact EvenPair.zero
  out i := by rw [State.outPort_rset]; exact EvenPair.zero

/-- Loading a Processor register touches neither memory nor a channel. -/
theorem setProcReg_channels {s t : State} {n : Nat} {v : Word} (h : s.setProcReg n v = some t) :
    t.mem = s.mem ∧ t.inp = s.inp ∧ t.out = s.out := by
  unfold State.setProcReg at h
  split at h <;> cases h <;> exact ⟨rfl, rfl, rfl⟩

theorem lptrAct_inv (a p : Word) (d : Done) {s : State} (h : s.Inv) : (lptrAct a p d s).Ends State.Inv := by
  unfold lptrAct
  split
  · rename_i i _; exact h.setIn i ⟨getLsbD_zero_evenWord a, (h.inp i).2⟩
  · rename_i i _ _
    split
    · trivial
    · exact h.setOut i ⟨getLsbD_zero_evenWord a, (h.out i).2⟩
  · trivial

theorem lcntAct_inv (n : Word) (p : Byte) (d : Done) {s : State} (h : s.Inv) : (lcntAct n p d s).Ends State.Inv := by
  unfold lcntAct
  split
  · rename_i i _; exact h.setIn i ⟨(h.inp i).1, getLsbD_zero_evenWord n⟩
  · rename_i i _ _
    split
    · trivial
    · exact h.setOut i ⟨(h.out i).1, getLsbD_zero_evenWord n⟩
  · trivial

theorem bptrAct_inv (a m : Word) (d : Done) {s : State} (h : s.Inv) : (bptrAct a m d s).Ends State.Inv := by
  unfold bptrAct
  split
  · trivial
  · split
    · trivial
    · refine h.mapOut fun i p hp => ?_
      split
      · exact ⟨getLsbD_zero_evenWord a, hp.2⟩
      · exact hp

theorem bcntAct_inv (n m : Word) (d : Done) {s : State} (h : s.Inv) : (bcntAct n m d s).Ends State.Inv := by
  unfold bcntAct
  split
  · trivial
  · split
    · trivial
    · refine h.mapOut fun i p hp => ?_
      split
      · exact ⟨hp.1, getLsbD_zero_evenWord n⟩
      · exact hp

theorem keeps_inv (i : Instr) : Keeps (fun _ => True) State.Inv i where
  stable := stable_inv
  error _ _ _ h := h.congr rfl rfl rfl
  rset _ _ h := h.rset
  ldpr _ _ _ _ _ _ _ h ht := by
    obtain ⟨hm, hi, ho⟩ := setProcReg_channels ht
    exact h.congr hm hi ho
  lptr _ _ _ a p d _ h := lptrAct_inv a p d h
  lcnt _ _ _ n p d _ h := lcntAct_inv n p d h
  bptr _ _ _ a m d _ h := bptrAct_inv a m d h
  bcnt _ _ _ n m d _ h := bcntAct_inv n m d h

/-! The step. -/

/-- A property that every instruction and the processor's own updates keep is kept by the processor's step. -/
theorem processorStep_keeps {A : Fin 16 → Prop} {P : State → Prop} (hP : Stable A P)
    (hexec : ∀ i s, P s → NextHas P (exec i s)) {s : State} (h : P s) : NextHas P (processorStep s) := by
  unfold processorStep
  split
  · exact hP.takeAsync h
  · split
    · exact hP.fetchPast h
    · unfold executeNext
      split
      · exact hP.finish _ _ (fun _ e => by cases e) (hP.missingBytes h)
      · split
        · trivial
        · exact hP.finish _ _ (fun _ e => by cases e) h
      · split
        · trivial
        · exact hexec _ _ h

/-- A property that the agents keep too, and that the schedule does not enter, is kept by every step of the node. -/
theorem step_keeps {A : Fin 16 → Prop} {P : State → Prop} (hP : Stable A P)
    (hexec : ∀ i s, P s → NextHas P (exec i s)) (hagent : ∀ e s t, agentStep e s = .next t → P s → P t)
    (hevents : ∀ (s : State) es, P s → P { s with events := es }) {s : State} (h : P s) : NextHas P (step s) := by
  unfold step nodeStep
  split
  · exact processorStep_keeps hP hexec h
  · exact processorStep_keeps hP hexec (hevents _ _ h)
  · rename_i e rest _ _
    cases he : agentStep e { s with events := rest } with
    | next t => exact hagent _ _ _ he (hevents _ _ h)
    | fault f => trivial
    | refused r => trivial

theorem NextHas.of_next {P : State → Prop} {o : Host.Outcome State Fault Refusal} {t : State} (h : NextHas P o)
    (ho : o = .next t) : P t := by rw [ho] at h; exact h

/-- Settles O8: the invariant is one of the properties that `Keeps` carries through every instruction, and the agents keep
it by `agentStep_inv`. -/
theorem invariantKept : Obligations.InvariantKept := by
  intro s t hs hstep
  have hkeeps : NextHas State.Inv (step s) :=
    step_keeps stable_inv (fun i _ h => (keeps_inv i).execAll h) (fun _ _ _ he h => agentStep_inv h he)
      (fun _ _ h => h.congr rfl rfl rfl) hs
  exact hkeeps.of_next hstep

end Sys2Proof.Machine

/-!
The decoder and the encoder are inverse to each other (R110 to R122): little-endian fields, the two encoding parameters,
the mode specifiers of a reference, and the cells of the opcode map, each from the definitions of the two directions.
-/
namespace Sys2Proof

open Sys2Proof

/-! Little-endian fields. -/

theorem takeLE_bytesLE : ∀ (n v : Nat) (rest : List Byte), v < 256 ^ n →
    takeLE n (bytesLE n v ++ rest) = some (v, rest)
  | 0, v, rest, h => by
    obtain rfl : v = 0 := by simpa using h
    rfl
  | n + 1, v, rest, h => by
    have hrec := takeLE_bytesLE n (v / 256) rest (by rw [pow_succ] at h; omega)
    simp only [bytesLE, List.cons_append, takeLE, hrec, BitVec.toNat_ofNat]
    congr 2
    omega

theorem bytesLE_of_takeLE : ∀ {n v : Nat} {bs rest : List Byte}, takeLE n bs = some (v, rest) →
    v < 256 ^ n ∧ bytesLE n v ++ rest = bs
  | 0, v, bs, rest, h => by cases h; exact ⟨by simp, rfl⟩
  | n + 1, v, [], rest, h => by cases h
  | n + 1, v, b :: bs, rest, h => by
    simp only [takeLE] at h
    split at h
    · rename_i u rest' hu
      cases h
      obtain ⟨hlt, hbs⟩ := bytesLE_of_takeLE hu
      have hb := b.isLt
      refine ⟨by rw [pow_succ]; omega, ?_⟩
      have hdiv : (b.toNat + 256 * u) / 256 = u := by omega
      have hhead : BitVec.ofNat 8 (b.toNat + 256 * u) = b := by
        apply BitVec.eq_of_toNat_eq; simp only [BitVec.toNat_ofNat]; omega
      simp only [bytesLE, hdiv, hhead, List.cons_append, hbs]
    · cases h

/-! The encoding parameters. -/

theorem renameRow_renameRow : ∀ b : Byte, renameRow 10 11 9 (renameRow 11 9 10 b) = b ∧
    renameRow 11 9 10 (renameRow 10 11 9 b) = b := by decide

theorem mapOpcode_memOpcode (cfg : Params) (b : Byte) : mapOpcode cfg (memOpcode cfg b) = b := by
  unfold mapOpcode memOpcode
  cases cfg.divRows with
  | opcodeMap => rfl
  | definitions => exact (renameRow_renameRow b).1

theorem memOpcode_mapOpcode (cfg : Params) (b : Byte) : memOpcode cfg (mapOpcode cfg b) = b := by
  unfold mapOpcode memOpcode
  cases cfg.divRows with
  | opcodeMap => rfl
  | definitions => exact (renameRow_renameRow b).2

theorem tableSpec_eq_ite (cfg : Params) (b : Byte) :
    tableSpec cfg b = b ∨ (b = 0xFC ∧ tableSpec cfg b = 0xFD) ∨ (b = 0xFD ∧ tableSpec cfg b = 0xFC) := by
  unfold tableSpec
  cases cfg.stkImm with
  | modeTable => exact .inl rfl
  | headings =>
    dsimp only
    split
    · exact .inr (.inl ⟨‹_›, rfl⟩)
    · split
      · exact .inr (.inr ⟨‹_›, rfl⟩)
      · exact .inl rfl

/-- Only FC and FD are renumbered. -/
theorem tableSpec_of_ne (cfg : Params) {b : Byte} (hC : b ≠ 0xFC) (hD : b ≠ 0xFD) : tableSpec cfg b = b := by
  rcases tableSpec_eq_ite cfg b with h | ⟨h, -⟩ | ⟨h, -⟩
  · exact h
  · exact absurd h hC
  · exact absurd h hD

theorem tableSpec_tableSpec (cfg : Params) (b : Byte) : tableSpec cfg (tableSpec cfg b) = b := by
  unfold tableSpec
  cases cfg.stkImm with
  | modeTable => rfl
  | headings =>
    dsimp only
    by_cases hC : b = 0xFC
    · subst hC; rfl
    · by_cases hD : b = 0xFD
      · subst hD; rfl
      · simp only [hC, hD, if_false]

/-- A specifier that the table numbers as neither FC nor FD is the byte itself. -/
theorem eq_of_tableSpec_eq (cfg : Params) {b s : Byte} (h : tableSpec cfg b = s) (hC : s ≠ 0xFC) (hD : s ≠ 0xFD) :
    b = s := by
  rw [← tableSpec_tableSpec cfg b, h, tableSpec_of_ne cfg hC hD]

/-! Mode specifier bytes. -/

theorem toNat_specByte {md : Nat} (hmd : md < 16) (n : Fin 16) : (specByte md n.val).toNat = 16 * md + n.val := by
  unfold specByte
  rw [BitVec.toNat_ofNat]
  omega

theorem tableSpec_specByte (cfg : Params) {md : Nat} (hmd : md < 15) (n : Fin 16) :
    tableSpec cfg (specByte md n.val) = specByte md n.val := by
  have ht := toNat_specByte (md := md) (by omega) n
  apply tableSpec_of_ne <;> · intro h; rw [h] at ht; simp at ht; omega

theorem regField_specByte {md : Nat} (hmd : md < 16) (n : Fin 16) : regField (specByte md n.val) = n := by
  apply Fin.ext
  show (specByte md n.val).toNat % 16 = n.val
  rw [toNat_specByte hmd]
  omega

theorem specByte_regField {md : Nat} {b : Byte} (h : b.toNat / 16 = md) : specByte md (regField b).val = b := by
  apply BitVec.eq_of_toNat_eq
  have hb := b.isLt
  rw [toNat_specByte (by omega)]
  show 16 * md + b.toNat % 16 = b.toNat
  omega

/-- The byte of a literal has its value, below 64. -/
theorem toNat_literal (v : BitVec 6) : (BitVec.ofNat 8 v.toNat : Byte).toNat = v.toNat := by
  have := v.isLt
  rw [BitVec.toNat_ofNat]; omega

theorem literal_setWidth {b : Byte} (h : b.toNat / 16 < 4) : BitVec.ofNat 8 (b.setWidth 6).toNat = b := by
  apply BitVec.eq_of_toNat_eq
  rw [toNat_literal, BitVec.toNat_setWidth]
  omega

theorem setWidth_literal (v : BitVec 6) : (BitVec.ofNat 8 v.toNat : Byte).setWidth 6 = v := by
  apply BitVec.eq_of_toNat_eq
  rw [BitVec.toNat_setWidth, toNat_literal]
  exact Nat.mod_eq_of_lt v.isLt

/-! References. -/

theorem refWith_bytesLE {n v : Nat} (mk : Nat → Ref) (rest : List Byte) (hv : v < 256 ^ n) :
    refWith n mk (bytesLE n v ++ rest) = (mk v, rest) := by
  unfold refWith
  rw [takeLE_bytesLE n v rest hv]

theorem Ref.encodable_missing (k : RefKind) (n : Fin 9) : (Ref.missing n).encodable k = false := by
  cases k <;> rfl

theorem Ref.encodable_illegal (k : RefKind) (b : Byte) : (Ref.illegal b).encodable k = false := by
  cases k <;> rfl

/-- A reference with `n` offset bytes that has an end is made of those bytes. -/
theorem refWith_eq {n : Nat} {mk : Nat → Ref} {bs rest : List Byte} {r : Ref} {k : RefKind}
    (h : refWith n mk bs = (r, rest)) (hr : r.encodable k = true) :
    ∃ v, r = mk v ∧ v < 256 ^ n ∧ bytesLE n v ++ rest = bs := by
  unfold refWith at h
  split at h
  · rename_i v rest' hv
    cases h
    exact ⟨v, rfl, bytesLE_of_takeLE hv⟩
  · cases h
    rw [Ref.encodable_missing] at hr
    cases hr

/-- Decoding goes on after an encodable reference. -/
theorem Ref.decoded_of_encodable {k : RefKind} {r : Ref} (h : r.encodable k = true) : r.decoded = true := by
  cases r with
  | illegal b => rw [Ref.encodable_illegal] at h; cases h
  | missing n => rw [Ref.encodable_missing] at h; cases h
  | _ => rfl

/-- The count register of a repeat is encodable as Register Direct only. -/
theorem Ref.encodable_count {r : Ref} (h : r.encodable .count = true) : ∃ n, r = .reg n := by
  cases r with
  | reg n => exact ⟨n, rfl⟩
  | _ => cases h

/-- A specifier with a mode below F is decoded by its mode. -/
theorem decodeRef_specByte (cfg : Params) {k : RefKind} {md : Nat} (hmd : md < 15) (hk : k ≠ .count ∨ md = 12)
    (n : Fin 16) (rest : List Byte) :
    decodeRef cfg k (specByte md n.val :: rest) = decodeMode k (specByte md n.val) (specByte md n.val) rest := by
  unfold decodeRef
  dsimp only
  rw [tableSpec_specByte cfg hmd, if_neg]
  rintro ⟨hc, h12⟩
  rw [toNat_specByte (by omega)] at h12
  rcases hk with h | h
  · exact h hc
  · omega

/-- A specifier byte that the table numbers F`sub` is decoded as that special mode. -/
theorem decodeRef_special (cfg : Params) {k : RefKind} (hk : k ≠ .count) {b s : Byte} (hs : tableSpec cfg b = s)
    (hF : s.toNat / 16 = 15) (rest : List Byte) :
    decodeRef cfg k (b :: rest) = decodeSpecial k b (s.toNat % 16) rest := by
  unfold decodeRef
  dsimp only
  rw [hs, if_neg (fun h => hk h.1)]
  simp only [decodeMode, hF]

theorem specByte_mode {md : Nat} (hmd : md < 16) (n : Fin 16) : (specByte md n.val).toNat / 16 = md := by
  rw [toNat_specByte hmd]; omega

theorem pow_256 (n : Nat) : 256 ^ n = 2 ^ (8 * n) := by
  rw [Nat.pow_mul]

/-- An offset of `n` bytes is read back as the reference made of it. -/
theorem refWith_offset (n : Nat) (mk : Nat → Ref) (off : BitVec (8 * n)) (rest : List Byte) :
    refWith n mk (bytesLE n off.toNat ++ rest) = (mk off.toNat, rest) :=
  refWith_bytesLE mk rest (by rw [pow_256]; exact off.isLt)

section
variable (cfg : Params) {k : RefKind} (hk : k ≠ .count) (n : Fin 16) (rest : List Byte)
include hk

theorem decodeRef_lit (v : BitVec 6) : decodeRef cfg k (BitVec.ofNat 8 v.toNat :: rest) = (.lit v, rest) := by
  have hv := v.isLt
  have ht := toNat_literal v
  have hs : tableSpec cfg (BitVec.ofNat 8 v.toNat) = BitVec.ofNat 8 v.toNat := by
    apply tableSpec_of_ne <;> · intro h; rw [h] at ht; simp at ht; omega
  have hrow : v.toNat / 16 = 0 ∨ v.toNat / 16 = 1 ∨ v.toNat / 16 = 2 ∨ v.toNat / 16 = 3 := by omega
  unfold decodeRef
  dsimp only
  rw [hs, if_neg (fun h => hk h.1)]
  unfold decodeMode
  rw [ht]
  rcases hrow with h | h | h | h <;> simp only [h, setWidth_literal]

theorem decodeRef_imm (v : BitVec 64) (h : (Ref.imm v).encodable k = true) :
    decodeRef cfg k (encodeRef cfg k (.imm v) ++ rest) = (.imm v, rest) := by
  have hlen : ∃ n, k.immLen = some n ∧ v.toNat < 2 ^ (8 * n) := by
    cases k with
    | value t => exact ⟨t.len, rfl, of_decide_eq_true h⟩
    | count => exact absurd rfl hk
    | dest t => cases h
    | addr => cases h
  obtain ⟨m, hm, hv⟩ := hlen
  have hbytes : refWith m (fun x => .imm (BitVec.ofNat 64 x)) (bytesLE m v.toNat ++ rest) = (.imm v, rest) := by
    rw [refWith_bytesLE _ rest (by rw [pow_256]; exact hv), BitVec.ofNat_toNat, BitVec.setWidth_eq]
  simp [encodeRef, hm, decodeRef_special cfg hk (tableSpec_tableSpec cfg _), decodeSpecial, hbytes]

end

/-- The decoder reads an encoded reference back, whatever follows. -/
theorem decodeRef_encodeRef (cfg : Params) (k : RefKind) (r : Ref) (rest : List Byte) (h : r.encodable k = true) :
    decodeRef cfg k (encodeRef cfg k r ++ rest) = (r, rest) := by
  by_cases hk : k = .count
  · subst hk
    obtain ⟨n, rfl⟩ := Ref.encodable_count h
    refine (decodeRef_specByte cfg (by decide) (.inr rfl) n rest).trans ?_
    simp only [decodeMode, specByte_mode, regField_specByte, Nat.reduceLT]
  · cases r with
    | illegal b => rw [Ref.encodable_illegal] at h; cases h
    | missing n => rw [Ref.encodable_missing] at h; cases h
    | lit v => exact decodeRef_lit cfg hk rest v
    | stk => simp [encodeRef, decodeRef_special cfg hk (tableSpec_tableSpec cfg _), decodeSpecial]
    | imm v => exact decodeRef_imm cfg hk rest v h
    | ind n | autoSkip n | autoInc n | autoIncInd n | reg n | autoDec n =>
      simp [encodeRef, decodeRef_specByte cfg _ (.inl hk), decodeMode, specByte_mode, regField_specByte]
    | offB n off | offH n off | offW n off | offInd n off =>
      simp [encodeRef, decodeRef_specByte cfg _ (.inl hk), decodeMode, specByte_mode, regField_specByte, refWith_offset]
    | pcB off | pcH off | pcW off | pcInd off | spB off | spH off | spW off | spInd off | dirB off | dirH off | dirW off
    | dirInd off =>
      simp [encodeRef, decodeRef_special cfg hk (tableSpec_of_ne cfg _ _), decodeSpecial, refWith_offset]

/-- A reference with `n` offset bytes is written back as its specifier and those bytes. -/
theorem encodeRef_refWith {cfg : Params} {k : RefKind} {n : Nat} {mk : Nat → Ref} {b : Byte} {bs rest : List Byte}
    {r : Ref} (h : refWith n mk bs = (r, rest)) (hr : r.encodable k = true)
    (henc : ∀ v, v < 2 ^ (8 * n) → encodeRef cfg k (mk v) = b :: bytesLE n v) :
    encodeRef cfg k r ++ rest = b :: bs := by
  obtain ⟨v, rfl, hv, hbs⟩ := refWith_eq h hr
  rw [henc v (by rwa [← pow_256]), List.cons_append, hbs]

theorem encodeRef_decodeSpecial (cfg : Params) {k : RefKind} {b s : Byte} {r : Ref} {bs rest : List Byte}
    (hs : tableSpec cfg b = s) (hF : s.toNat / 16 = 15)
    (h : decodeSpecial k b (s.toNat % 16) bs = (r, rest)) (hr : r.encodable k = true) :
    encodeRef cfg k r ++ rest = b :: bs := by
  have hsub : s = BitVec.ofNat 8 (240 + s.toNat % 16) := by
    apply BitVec.eq_of_toNat_eq
    have := s.isLt
    rw [BitVec.toNat_ofNat]
    omega
  have hfixed : s.toNat % 16 < 12 → b = BitVec.ofNat 8 (240 + s.toNat % 16) := by
    intro hlow
    rw [← hsub]
    apply eq_of_tableSpec_eq cfg hs <;> · rintro rfl; exact absurd hlow (by decide)
  have hswap : b = tableSpec cfg (BitVec.ofNat 8 (240 + s.toNat % 16)) := by
    rw [← hsub, ← hs, tableSpec_tableSpec]
  unfold decodeSpecial at h
  split at h
  case h_1 hm | h_2 hm | h_3 hm | h_4 hm | h_5 hm | h_6 hm | h_7 hm | h_8 hm | h_9 hm | h_10 hm | h_11 hm | h_12 hm =>
    rw [hfixed (by omega), hm]
    exact encodeRef_refWith h hr fun v hv => by
      simp only [encodeRef, BitVec.toNat_ofNat]
      rw [Nat.mod_eq_of_lt hv]
      rfl
  case h_13 hm =>
    cases h
    rw [hswap, hm]
    rfl
  case h_14 hm =>
    split at h
    next n hn =>
      have hwidth : 8 * n ≤ 64 := by
        cases k with
        | value t => cases hn; cases t <;> decide
        | count | dest _ | addr => cases hn
      rw [hswap, hm]
      exact encodeRef_refWith h hr fun v hv => by
        simp only [encodeRef, hn, Option.getD_some, BitVec.toNat_ofNat]
        rw [Nat.mod_eq_of_lt (lt_of_lt_of_le hv (Nat.pow_le_pow_right (by decide) hwidth))]
        rfl
    next =>
      cases h
      rw [Ref.encodable_illegal] at hr
      cases hr
  case h_15 =>
    cases h
    rw [Ref.encodable_illegal] at hr
    cases hr

theorem encodeRef_decodeMode (cfg : Params) {k : RefKind} {b : Byte} {r : Ref} {bs rest : List Byte}
    (h : decodeMode k b (tableSpec cfg b) bs = (r, rest)) (hr : r.encodable k = true) :
    encodeRef cfg k r ++ rest = b :: bs := by
  by_cases hF : (tableSpec cfg b).toNat / 16 = 15
  · simp only [decodeMode, hF] at h
    exact encodeRef_decodeSpecial cfg rfl hF h hr
  have hb : tableSpec cfg b = b := by
    refine (eq_of_tableSpec_eq cfg rfl ?_ ?_).symm <;> · intro hs; exact hF (by rw [hs]; decide)
  rw [hb] at h
  unfold decodeMode at h
  split at h
  case h_1 hm | h_2 hm | h_3 hm | h_4 hm =>
    cases h
    simp only [encodeRef, literal_setWidth (by omega : b.toNat / 16 < 4), List.cons_append, List.nil_append]
  case h_5 hm | h_6 hm | h_7 hm | h_8 hm | h_13 hm | h_14 hm =>
    cases h
    simp only [encodeRef, specByte_regField hm, List.cons_append, List.nil_append]
  case h_9 hm | h_10 hm | h_11 hm | h_12 hm =>
    exact encodeRef_refWith h hr fun v hv => by
      simp only [encodeRef, BitVec.toNat_ofNat, specByte_regField hm]
      rw [Nat.mod_eq_of_lt hv]
  case h_15 hm => rw [hb] at hF; exact absurd hm hF
  case h_16 =>
    cases h
    rw [Ref.encodable_illegal] at hr
    cases hr

/-- The encoder writes a decoded reference back as the bytes it was read from. -/
theorem encodeRef_decodeRef (cfg : Params) (k : RefKind) {r : Ref} {bs rest : List Byte}
    (h : decodeRef cfg k bs = (r, rest)) (hr : r.encodable k = true) : encodeRef cfg k r ++ rest = bs := by
  cases bs with
  | nil =>
    cases h
    rw [Ref.encodable_missing] at hr
    cases hr
  | cons b bs =>
    unfold decodeRef at h
    dsimp only at h
    split at h
    · cases h
      rw [Ref.encodable_illegal] at hr
      cases hr
    · exact encodeRef_decodeMode cfg h hr

/-! Cells of the opcode map. -/

/-- The instructions of a cell have its opcode, and references of the kinds it says. -/
def Shape.Agrees (b : Byte) : Shape → Prop
  | .zero i => i.parts = ⟨b, []⟩
  | .one k mk => ∀ r, (mk r).parts = ⟨b, [(k, r)]⟩
  | .two k₁ k₂ mk => ∀ r₁ r₂, (mk r₁ r₂).parts = ⟨b, [(k₁, r₁), (k₂, r₂)]⟩

/-- The instruction is one of those of a cell. -/
def Shape.Makes (i : Instr) : Shape → Prop
  | .zero j => i = j
  | .one _ mk => ∃ r, i = mk r
  | .two _ _ mk => ∃ r₁ r₂, i = mk r₁ r₂

theorem column0_agrees : ∀ c ∈ column0, c.2.Agrees c.1 := by
  simp only [Shape.Agrees, column0, List.forall_mem_cons, List.not_mem_nil, false_imp_iff, implies_true, and_true]
  and_intros <;> intros <;> rfl

theorem column1_agrees : ∀ c ∈ column1, c.2.Agrees c.1 := by
  simp only [Shape.Agrees, column1, List.forall_mem_cons, List.not_mem_nil, false_imp_iff, implies_true, and_true]
  and_intros <;> intros <;> rfl

theorem column2_agrees : ∀ c ∈ column2, c.2.Agrees c.1 := by
  simp only [Shape.Agrees, column2, List.forall_mem_cons, List.not_mem_nil, false_imp_iff, implies_true, and_true]
  and_intros <;> intros <;> rfl

theorem column3_agrees : ∀ c ∈ column3, c.2.Agrees c.1 := by
  simp only [Shape.Agrees, column3, List.forall_mem_cons, List.not_mem_nil, false_imp_iff, implies_true, and_true]
  and_intros <;> intros <;> rfl

theorem column4_agrees : ∀ c ∈ column4, c.2.Agrees c.1 := by
  simp only [Shape.Agrees, column4, List.forall_mem_cons, List.not_mem_nil, false_imp_iff, implies_true, and_true]
  and_intros <;> intros <;> rfl

theorem column5_agrees : ∀ c ∈ column5, c.2.Agrees c.1 := by
  simp only [Shape.Agrees, column5, List.forall_mem_cons, List.not_mem_nil, false_imp_iff, implies_true, and_true]
  and_intros <;> intros <;> rfl

theorem column8_agrees : ∀ c ∈ column8, c.2.Agrees c.1 := by
  simp only [Shape.Agrees, column8, List.forall_mem_cons, List.not_mem_nil, false_imp_iff, implies_true, and_true]
  and_intros <;> intros <;> rfl

theorem column9_agrees : ∀ c ∈ column9, c.2.Agrees c.1 := by
  simp only [Shape.Agrees, column9, List.forall_mem_cons, List.not_mem_nil, false_imp_iff, implies_true, and_true]
  and_intros <;> intros <;> rfl

theorem columnA_agrees : ∀ c ∈ columnA, c.2.Agrees c.1 := by
  simp only [Shape.Agrees, columnA, List.forall_mem_cons, List.not_mem_nil, false_imp_iff, implies_true, and_true]
  and_intros <;> intros <;> rfl

theorem columnB_agrees : ∀ c ∈ columnB, c.2.Agrees c.1 := by
  simp only [Shape.Agrees, columnB, List.forall_mem_cons, List.not_mem_nil, false_imp_iff, implies_true, and_true]
  and_intros <;> rfl

theorem columnE_agrees : ∀ c ∈ columnE, c.2.Agrees c.1 := by
  simp only [Shape.Agrees, columnE, List.forall_mem_cons, List.not_mem_nil, false_imp_iff, implies_true, and_true]
  and_intros <;> intros <;> rfl

theorem columnF_agrees : ∀ c ∈ columnF, c.2.Agrees c.1 := by
  simp only [Shape.Agrees, columnF, List.forall_mem_cons, List.not_mem_nil, false_imp_iff, implies_true, and_true]
  and_intros <;> intros <;> rfl

theorem opcodeMap_agrees : ∀ c ∈ opcodeMap, c.2.Agrees c.1 := by
  unfold opcodeMap
  simp only [List.forall_mem_append]
  exact ⟨⟨⟨⟨⟨⟨⟨⟨⟨⟨⟨column0_agrees, column1_agrees⟩, column2_agrees⟩, column3_agrees⟩, column4_agrees⟩,
    column5_agrees⟩, column8_agrees⟩, column9_agrees⟩, columnA_agrees⟩, columnB_agrees⟩, columnE_agrees⟩,
    columnF_agrees⟩

theorem mem_of_lookupOpcode {b : Byte} {c : Shape} : ∀ {l : List (Byte × Shape)}, lookupOpcode b l = some c →
    (b, c) ∈ l
  | [], h => by cases h
  | (k, d) :: rest, h => by
    unfold lookupOpcode at h
    split at h
    · rename_i hk; cases h; rw [hk]; exact List.mem_cons_self
    · exact List.mem_cons_of_mem _ (mem_of_lookupOpcode h)

theorem lookupOpcode_agrees {b : Byte} {c : Shape} (h : lookupOpcode b opcodeMap = some c) : c.Agrees b :=
  opcodeMap_agrees _ (mem_of_lookupOpcode h)

/-- An opcode is looked up column by column. -/
theorem lookupOpcode_append (b : Byte) (l m : List (Byte × Shape)) :
    lookupOpcode b (l ++ m) = (lookupOpcode b l).or (lookupOpcode b m) := by
  induction l with
  | nil => rfl
  | cons e l ih =>
    obtain ⟨k, c⟩ := e
    rw [List.cons_append, lookupOpcode, lookupOpcode]
    split
    · rfl
    · exact ih

/-- Every instruction is one of the cell at its opcode. -/
theorem lookupOpcode_makes (i : Instr) : ∃ c, lookupOpcode i.parts.opcode opcodeMap = some c ∧ c.Makes i := by
  simp only [opcodeMap, lookupOpcode_append]
  cases i with
  | nop | clc | stc | cmc | eron | erof | bkpt | rset | ei | di | reti | wait | ret =>
    exact ⟨_, rfl, rfl⟩
  | rep src | repz src | repnz src | trap src | bg src | ble src | bgu src | bleu src | bge src | bl src | bgeu src
  | blu src | bne src | be src | bnv src | bv src | call src | jmp src | retp src =>
    exact ⟨_, rfl, src, rfl⟩
  | _ src des => exact ⟨_, rfl, src, des, rfl⟩

/-- Settles O5. -/
theorem decodeEncode : Obligations.DecodeEncode := by
  intro cfg i rest hi
  obtain ⟨c, hc, hmk⟩ := lookupOpcode_makes i
  have hag := lookupOpcode_agrees hc
  unfold Instr.encodable at hi
  have hlook : lookupOpcode (mapOpcode cfg (memOpcode cfg i.parts.opcode)) opcodeMap = some c := by
    rw [mapOpcode_memOpcode, hc]
  unfold encode
  rw [List.cons_append]
  unfold decode
  simp only [hlook]
  cases c with
  | zero j =>
    obtain rfl : i = j := hmk
    rw [show i.parts = _ from hag]
    rfl
  | one k mk =>
    obtain ⟨r, rfl⟩ := hmk
    rw [hag r] at hi ⊢
    simp only [List.all_cons, List.all_nil, Bool.and_true] at hi
    simp only [List.flatMap_cons, List.flatMap_nil, List.append_nil, decodeRef_encodeRef cfg k r rest hi]
  | two k₁ k₂ mk =>
    obtain ⟨r₁, r₂, rfl⟩ := hmk
    rw [hag r₁ r₂] at hi ⊢
    simp only [List.all_cons, List.all_nil, Bool.and_true, Bool.and_eq_true] at hi
    obtain ⟨h₁, h₂⟩ := hi
    simp only [List.flatMap_cons, List.flatMap_nil, List.append_nil, List.append_assoc,
      decodeRef_encodeRef cfg k₁ r₁ _ h₁, decodeRef_encodeRef cfg k₂ r₂ rest h₂, Ref.decoded_of_encodable h₁, if_true]

/-- Settles O6. -/
theorem encodeDecode : Obligations.EncodeDecode := by
  intro cfg bs rest i h hi
  cases bs with
  | nil => cases h
  | cons b bs =>
    unfold decode at h
    unfold Instr.encodable at hi
    have hb : memOpcode cfg (mapOpcode cfg b) = b := memOpcode_mapOpcode cfg b
    cases hc : lookupOpcode (mapOpcode cfg b) opcodeMap with
    | none => simp only [hc] at h; cases h
    | some c =>
      simp only [hc] at h
      have hag := lookupOpcode_agrees hc
      unfold encode
      cases c with
      | zero j =>
        cases h
        rw [show i.parts = _ from hag, hb]
        rfl
      | one k mk =>
        cases hr : decodeRef cfg k bs with
        | mk r rest' =>
          simp only [hr] at h
          cases h
          rw [hag r] at hi ⊢
          simp only [List.all_cons, List.all_nil, Bool.and_true] at hi
          simp only [List.flatMap_cons, List.flatMap_nil, List.append_nil, List.cons_append, hb,
            encodeRef_decodeRef cfg k hr hi]
      | two k₁ k₂ mk =>
        cases hr₁ : decodeRef cfg k₁ bs with
        | mk r₁ rest₁ =>
          cases hr₂ : decodeRef cfg k₂ rest₁ with
          | mk r₂ rest₂ =>
            simp only [hr₁, hr₂] at h
            split at h
            · cases h
              rw [hag r₁ r₂] at hi ⊢
              simp only [List.all_cons, List.all_nil, Bool.and_true, Bool.and_eq_true] at hi
              simp only [List.flatMap_cons, List.flatMap_nil, List.append_nil, List.cons_append, List.append_assoc, hb,
                encodeRef_decodeRef cfg k₂ hr₂ hi.2, encodeRef_decodeRef cfg k₁ hr₁ hi.1]
            · cases h
              rw [hag] at hi
              simp [Ref.encodable_missing] at hi

end Sys2Proof

/-!
Reset and fetch: the state after reset, written-out instruction words, the reserved opcodes, and the step of a processor
whose bytes decode (R621, R100, R122, R150).
-/
namespace Sys2Proof.Machine

open Sys2Proof

/-! Reset. -/

/-- Above the mark of the self test the memory of a reset node reads as zero. -/
theorem read_reset {a : Nat} (h : 4 ≤ a) : State.reset.mem.read a = 0 := by
  show unlisted a = 0
  rw [unlisted, if_neg (by omega)]

theorem inPort_reset (i : Fin 11) : State.reset.inPort i = InPort.zero := by
  revert i; decide

theorem outPort_reset (i : Fin 11) : State.reset.outPort i = OutPort.zero := by
  revert i; decide

/-- Settles O1. -/
theorem resetState : Obligations.ResetState := by
  refine ⟨by decide, by decide +kernel, by decide +kernel, by decide +kernel, rfl, by decide +kernel, by decide +kernel, rfl, rfl,
    by decide +kernel, by decide +kernel, by decide +kernel,
    inPort_reset, outPort_reset, rfl, rfl, rfl, rfl, rfl, rfl, rfl, rfl, rfl, rfl, by decide, fun a h _ => read_reset h⟩

/-- Settles O2. -/
theorem resetInvariant : Obligations.ResetInvariant where
  mem := by decide
  inp i := by rw [inPort_reset]; decide
  out i := by rw [outPort_reset]; decide

/-! The step of a processor. -/

/-- With no turn of another agent scheduled the step is the processor's. -/
theorem step_of_events_nil {s : State} (h : s.events = []) : step s = processorStep s := by
  show nodeStep s = processorStep s
  rw [nodeStep, h]

theorem step_of_cpu {s : State} {es : List Event} (h : s.events = .cpu :: es) :
    step s = processorStep { s with events := es } := by
  show nodeStep s = _
  rw [nodeStep, h]

/-- A processor that is not Idle and has an instruction to fetch executes the next one. -/
theorem processorStep_of_running {s : State} (hi : s.idle = false) (hp : s.pastEnd = false) :
    processorStep s = executeNext s := by
  rw [processorStep, hi, hp]; rfl

theorem executeNext_of_decode {s : State} {i : Instr} {rest : List Byte}
    (hd : decode s.cfg (fetchBytes s) = .ok (i, rest)) (hf : staleByte s (fetchedFirst i s) = none) :
    executeNext s = exec i s := by
  rw [executeNext, hd]
  dsimp only
  rw [hf]

/-- Settles O3. -/
theorem stepRunsDecoded : Obligations.StepRunsDecoded := by
  refine ⟨fun s i rest hi hp hd hf => ⟨fun he => ?_, fun es he => ?_⟩, fun s => ⟨fun h0 src des => ?_, fun hr he i => ?_⟩⟩
  · rw [step_of_events_nil he, processorStep_of_running hi hp, executeNext_of_decode hd hf]
  · rw [step_of_cpu he]
    exact (processorStep_of_running (s := { s with events := es }) hi hp).trans
      (executeNext_of_decode (s := { s with events := es }) hd hf)
  · rw [fetchedFirst, h0]; rfl
  · rw [fetchedFirst, he, Bool.and_true, if_pos (bne_iff_ne.2 hr)]

/-- Settles O4. -/
theorem decodeWords : Obligations.DecodeWords := by
  unfold Obligations.DecodeWords
  decide +kernel

/-! The reserved opcodes. -/

/-- A byte that no cell of the opcode map names, fetched as it stands, is Unimplemented Opcode. -/
theorem executeNext_of_reserved {s : State} {b : Byte} {rest : List Byte} (hrows : s.cfg.divRows = .opcodeMap)
    (hb : fetchBytes s = b :: rest) (hl : lookupOpcode b opcodeMap = none) (hf : staleByte s 1 = none) :
    executeNext s = takes 10 s.pc (s.noteExecuted s.pc) := by
  have hmap : mapOpcode s.cfg b = b := by rw [mapOpcode, hrows]
  rw [executeNext, hb, decode, hmap, hl]
  dsimp only
  rw [hf]
  rfl

/-- The cells that the opcode map leaves open, opcode by opcode. -/
theorem lookupOpcode_eq_none_iff : ∀ b : Byte, lookupOpcode b opcodeMap = none ↔
    b.toNat % 16 ∈ [6, 7, 12, 13] ∨ b.toNat / 16 = 15 ∨ (b.toNat % 16 = 14 ∧ (b.toNat / 16 = 0 ∨ 5 ≤ b.toNat / 16)) ∨
      (b.toNat % 16 = 11 ∧ b.toNat / 16 ∈ [10, 11]) ∨ (b.toNat % 16 = 9 ∧ b.toNat / 16 = 14) ∨
      (b.toNat % 16 = 3 ∧ 8 ≤ b.toNat / 16) ∨ (b.toNat % 16 = 1 ∧ 10 ≤ b.toNat / 16) ∨
      (b.toNat % 16 ∈ [0, 2, 4] ∧ 13 ≤ b.toNat / 16) ∨ (b.toNat % 16 ∈ [8, 10] ∧ 12 ≤ b.toNat / 16) := by
  simp only [← Option.isNone_iff_eq_none]
  decide +kernel

/-- Settles O7. -/
theorem reservedOpcodes : Obligations.ReservedOpcodes := by
  refine ⟨lookupOpcode_eq_none_iff, by decide +kernel, fun s b rest hi hp he hrows hb hl hf => ?_⟩
  rw [step_of_events_nil he, processorStep_of_running hi hp, executeNext_of_reserved hrows hb hl hf]

end Sys2Proof.Machine

/-!
Moves and integer arithmetic (R200 to R208, R244 to R247): the wrapped results of the integer cores as operations of bit
vectors, and the two ends of an instruction that delivers Integer Overflow, once for all of them.
-/
namespace Sys2Proof.Machine

open Sys2Proof

/-! ## The cores -/

section
variable {w : Nat}

theorem addCore_eq (x y : BitVec w) (cin : Bool) :
    addCore x y cin = ⟨x + y + BitVec.ofNat w cin.toNat, decide (2 ^ w ≤ x.toNat + y.toNat + cin.toNat),
      outOfRange w (x.toInt + y.toInt + cin.toNat), decide (x.toInt + y.toInt + cin.toNat < 0),
      x + y + BitVec.ofNat w cin.toNat == 0⟩ := by
  have hres : BitVec.ofNat w (x.toNat + y.toNat + cin.toNat) = x + y + BitVec.ofNat w cin.toNat := by
    rw [BitVec.ofNat_add, BitVec.ofNat_add, BitVec.ofNat_toNat, BitVec.ofNat_toNat, BitVec.setWidth_eq,
      BitVec.setWidth_eq]
  simp only [addCore, hres]

theorem ofInt_sub (x y : Int) : BitVec.ofInt w (x - y) = BitVec.ofInt w x - BitVec.ofInt w y := by
  rw [sub_eq_add_neg, BitVec.ofInt_add, BitVec.ofInt_neg, ← sub_eq_add_neg]

theorem subCore_eq (x y : BitVec w) (bin : Bool) :
    subCore x y bin = ⟨x - y - BitVec.ofNat w bin.toNat, decide (x.toNat < y.toNat + bin.toNat),
      outOfRange w (x.toInt - y.toInt - bin.toNat), decide (x.toInt - y.toInt - bin.toNat < 0),
      x - y - BitVec.ofNat w bin.toNat == 0⟩ := by
  have hres : BitVec.ofInt w ((x.toNat : Int) - y.toNat - bin.toNat) = x - y - BitVec.ofNat w bin.toNat := by
    rw [ofInt_sub, ofInt_sub, BitVec.ofInt_natCast, BitVec.ofInt_natCast, BitVec.ofInt_natCast, BitVec.ofNat_toNat,
      BitVec.ofNat_toNat, BitVec.setWidth_eq, BitVec.setWidth_eq]
  have hborrow : ((x.toNat : Int) - y.toNat - bin.toNat < 0) ↔ x.toNat < y.toNat + bin.toNat := by omega
  simp only [subCore, hres, hborrow]

theorem addCore_false (x y : BitVec w) :
    addCore x y false = ⟨x + y, decide (2 ^ w ≤ x.toNat + y.toNat), outOfRange w (x.toInt + y.toInt),
      decide (x.toInt + y.toInt < 0), x + y == 0⟩ := by
  simp [addCore_eq]

/-- Two words are equal where their difference is zero. -/
theorem sub_beq_zero (x y : BitVec w) : (x - y == 0) = (x == y) := by
  rw [Bool.eq_iff_iff, beq_iff_eq, beq_iff_eq]
  exact sub_eq_zero

theorem subCore_false (x y : BitVec w) :
    subCore x y false = ⟨x - y, decide (x.toNat < y.toNat), outOfRange w (x.toInt - y.toInt),
      decide (x.toInt < y.toInt), x == y⟩ := by
  have hneg : (x.toInt - y.toInt < 0) ↔ x.toInt < y.toInt := by omega
  simp [subCore_eq, hneg, ← sub_beq_zero]

theorem zero_subCore (x : BitVec w) :
    subCore 0 x false = ⟨-x, x != 0, outOfRange w (-x.toInt), decide (0 < x.toInt), x == 0⟩ := by
  have hpos : (0 < x.toNat) ↔ x ≠ 0 := by
    rw [Nat.pos_iff_ne_zero, ne_eq, ne_eq, ← BitVec.toNat_inj]; simp
  have hzero : (0#w == x) = (x == 0) := by rw [Bool.eq_iff_iff, beq_iff_eq, beq_iff_eq, eq_comm]; rfl
  rw [subCore_false]
  simp [hpos, hzero, bne]
  rfl

theorem mulCore_eq (x y : BitVec w) :
    mulCore x y = ⟨x * y, false, outOfRange w (x.toInt * y.toInt), decide (x.toInt * y.toInt < 0), x * y == 0⟩ := by
  have hres : BitVec.ofInt w (x.toInt * y.toInt) = x * y := by
    rw [BitVec.ofInt_mul, BitVec.ofInt_toInt, BitVec.ofInt_toInt]
  simp only [mulCore, hres]

theorem toInt_ne_zero {x : BitVec w} (h : x ≠ 0) : x.toInt ≠ 0 := fun e =>
  h (BitVec.eq_of_toInt_eq (by rw [e]; exact BitVec.toInt_zero.symm))

theorem divCore_of_ne_zero {den : BitVec w} (h : den ≠ 0) (num : BitVec w) :
    divCore num den = some ⟨num.sdiv den, false, outOfRange w (num.toInt.tdiv den.toInt),
      decide (num.toInt.tdiv den.toInt < 0), num.sdiv den == 0⟩ := by
  have hres : BitVec.ofInt w (num.toInt.tdiv den.toInt) = num.sdiv den :=
    BitVec.eq_of_toInt_eq (by rw [BitVec.toInt_ofInt, BitVec.toInt_sdiv])
  simp only [divCore, if_neg (toInt_ne_zero h), hres]

theorem remCore_of_ne_zero {den : BitVec w} (h : den ≠ 0) (num : BitVec w) :
    remCore num den = some ⟨num.srem den, false, false, decide ((num.srem den).toInt < 0), num.srem den == 0⟩ := by
  have hres : BitVec.ofInt w (num.toInt.tmod den.toInt) = num.srem den :=
    BitVec.eq_of_toInt_eq (by rw [BitVec.toInt_ofInt, ← BitVec.toInt_srem, BitVec.toInt_bmod_cancel])
  simp only [remCore, if_neg (toInt_ne_zero h), hres, BitVec.toInt_srem]

end

/-! ## The meanings, at the three widths -/

theorem exec_mov : ∀ p ∈ [(OpType.b, Instr.movb), (.h, .movh), (.w, .movw), (.r, .movr), (.l, .movl)], ∀ src des s,
    exec (p.2 src des) s = runPlain (p.2 src des) (writeBody p.1 p.1 (moveCalc s.ps) src des) s := by
  simp only [List.forall_mem_cons, List.not_mem_nil, false_imp_iff, implies_true, and_true]
  exact ⟨fun _ _ _ => rfl, fun _ _ _ => rfl, fun _ _ _ => rfl, fun _ _ _ => rfl, fun _ _ _ => rfl⟩

theorem exec_add : ∀ p ∈ [(OpType.b, Instr.addb), (.h, .addh), (.w, .addw)], ∀ src des s,
    exec (p.2 src des) s =
      runPlain (p.2 src des) (modifyBody p.1 p.1 (fun a b => arithCalc s.ps (addCore a b false)) src des) s :=
  forall_mem_triple (fun _ _ _ => rfl) (fun _ _ _ => rfl) (fun _ _ _ => rfl)

theorem exec_adc : ∀ p ∈ [(OpType.b, Instr.adcb), (.h, .adch), (.w, .adcw)], ∀ src des s,
    exec (p.2 src des) s =
      runPlain (p.2 src des) (modifyBody p.1 p.1 (fun a b => arithCalc s.ps (addCore a b s.ps.fC)) src des) s :=
  forall_mem_triple (fun _ _ _ => rfl) (fun _ _ _ => rfl) (fun _ _ _ => rfl)

theorem exec_sub : ∀ p ∈ [(OpType.b, Instr.subb), (.h, .subh), (.w, .subw)], ∀ src des s,
    exec (p.2 src des) s =
      runPlain (p.2 src des) (modifyBody p.1 p.1 (fun a b => arithCalc s.ps (subCore b a false)) src des) s :=
  forall_mem_triple (fun _ _ _ => rfl) (fun _ _ _ => rfl) (fun _ _ _ => rfl)

theorem exec_sbb : ∀ p ∈ [(OpType.b, Instr.sbbb), (.h, .sbbh), (.w, .sbbw)], ∀ src des s,
    exec (p.2 src des) s =
      runPlain (p.2 src des) (modifyBody p.1 p.1 (fun a b => arithCalc s.ps (subCore b a s.ps.fC)) src des) s :=
  forall_mem_triple (fun _ _ _ => rfl) (fun _ _ _ => rfl) (fun _ _ _ => rfl)

theorem exec_sbr : ∀ p ∈ [(OpType.b, Instr.sbrb), (.h, .sbrh), (.w, .sbrw)], ∀ src des s,
    exec (p.2 src des) s =
      runPlain (p.2 src des) (modifyBody p.1 p.1 (fun a b => arithCalc s.ps (subCore a b false)) src des) s :=
  forall_mem_triple (fun _ _ _ => rfl) (fun _ _ _ => rfl) (fun _ _ _ => rfl)

theorem exec_neg : ∀ p ∈ [(OpType.b, Instr.negb), (.h, .negh), (.w, .negw)], ∀ src des s,
    exec (p.2 src des) s =
      runPlain (p.2 src des) (writeBody p.1 p.1 (fun a => arithCalc s.ps (subCore 0 a false)) src des) s :=
  forall_mem_triple (fun _ _ _ => rfl) (fun _ _ _ => rfl) (fun _ _ _ => rfl)

theorem exec_mul : ∀ p ∈ [(OpType.b, Instr.mulb), (.h, .mulh), (.w, .mulw)], ∀ src des s,
    exec (p.2 src des) s =
      runPlain (p.2 src des) (modifyBody p.1 p.1 (fun a b => keepCCalc s.ps (mulCore a b)) src des) s :=
  forall_mem_triple (fun _ _ _ => rfl) (fun _ _ _ => rfl) (fun _ _ _ => rfl)

/-! ## Integer Overflow held back and delivered -/

section
variable {ts td : OpType} {mk : Ref → Ref → Instr} {pre : State → BitVec ts.bits → BitVec td.bits → Prop}
  {value : State → BitVec ts.bits → BitVec td.bits → BitVec td.bits}
  {c v n z : State → BitVec ts.bits → BitVec td.bits → Bool}

/-- A modifying instruction with the five integer flags, where Integer Overflow is not delivered. -/
theorem Modifies.of_arithCalc (op : State → BitVec ts.bits → BitVec td.bits → Calc td.bits)
    (hexec : ∀ src des s, exec (mk src des) s = runPlain (mk src des) (modifyBody ts td (op s) src des) s)
    (hop : ∀ s a b, pre s a b → op s a b = arithCalc s.ps ⟨value s a b, c s a b, v s a b, n s a b, z s a b⟩)
    (hv : ∀ s a b, pre s a b → (v s a b && s.ivEnabled) = false) :
    Modifies ts td mk pre value (fun s a b => s.ps.withArith (c s a b) (v s a b) (n s a b) (z s a b)) :=
  Modifies.of op hexec fun s a b h => by
    refine ⟨⟨v s a b, none⟩, hop s a b h, ?_⟩
    show (!(v s a b && s.ps.eIV && s.ps.eIE)) = true
    rw [Bool.and_assoc, Bool.not_eq_true']
    exact hv s a b h

/-- A modifying instruction with the five integer flags, where Integer Overflow is delivered. -/
theorem ModifySignals.of_arithCalc (op : State → BitVec ts.bits → BitVec td.bits → Calc td.bits)
    (hexec : ∀ src des s, exec (mk src des) s = runPlain (mk src des) (modifyBody ts td (op s) src des) s)
    (hop : ∀ s a b, pre s a b → op s a b = arithCalc s.ps ⟨value s a b, c s a b, v s a b, n s a b, z s a b⟩)
    (hv : ∀ s a b, pre s a b → v s a b = true ∧ s.ivEnabled = true) :
    ModifySignals ts td mk 3 pre value (fun s a b => s.ps.withArith (c s a b) true (n s a b) (z s a b))
      (fun _ _ => none) :=
  ModifySignals.of op hexec fun s a b h => by
    obtain ⟨hov, hiv⟩ := hv s a b h
    have hcalc := hop s a b h
    rw [hov] at hcalc
    refine ⟨⟨true, none⟩, hcalc, ?_⟩
    show (if true && s.ps.eIV && s.ps.eIE then some (3, none) else none) = some (3, none)
    rw [Bool.true_and]
    exact if_pos hiv

end

section
variable {ts td : OpType} {mk : Ref → Ref → Instr} {pre : State → BitVec ts.bits → Prop}
  {value : State → BitVec ts.bits → BitVec td.bits} {status : State → BitVec ts.bits → PsReg}
  {v : State → BitVec ts.bits → Bool}

/-- A writing instruction whose Integer Overflow is not delivered. -/
theorem Writes.of_overflow (op : State → BitVec ts.bits → Calc td.bits)
    (hexec : ∀ src des s, exec (mk src des) s = runPlain (mk src des) (writeBody ts td (op s) src des) s)
    (hop : ∀ s a, pre s a → op s a = .done (value s a) (status s a) ⟨v s a, none⟩ 0)
    (hps : ∀ s a, (status s a).eIV = s.ps.eIV ∧ (status s a).eIE = s.ps.eIE)
    (hv : ∀ s a, pre s a → (v s a && s.ivEnabled) = false) : Writes ts td mk pre value status :=
  Writes.of op hexec fun s a h => by
    refine ⟨⟨v s a, none⟩, hop s a h, ?_⟩
    show (!(v s a && (status s a).eIV && (status s a).eIE)) = true
    rw [(hps s a).1, (hps s a).2, Bool.and_assoc, Bool.not_eq_true']
    exact hv s a h

/-- A writing instruction whose Integer Overflow is delivered. -/
theorem WriteSignals.of_overflow (op : State → BitVec ts.bits → Calc td.bits)
    (hexec : ∀ src des s, exec (mk src des) s = runPlain (mk src des) (writeBody ts td (op s) src des) s)
    (hop : ∀ s a, pre s a → op s a = .done (value s a) (status s a) ⟨true, none⟩ 0)
    (hps : ∀ s a, (status s a).eIV = s.ps.eIV ∧ (status s a).eIE = s.ps.eIE)
    (hv : ∀ s a, pre s a → s.ivEnabled = true) : WriteSignals ts td mk 3 pre value status (fun _ => none) :=
  WriteSignals.of op hexec fun s a h => by
    refine ⟨⟨true, none⟩, hop s a h, ?_⟩
    show (if true && (status s a).eIV && (status s a).eIE then some (3, none) else none) = some (3, none)
    rw [(hps s a).1, (hps s a).2, Bool.true_and]
    exact if_pos (hv s a h)

end

/-- Settles O18. -/
theorem moves : Obligations.Moves := fun p hp =>
  Writes.of (fun s => moveCalc s.ps) (exec_mov p hp) fun _ _ _ => ⟨.none, rfl, quietSignal_none _⟩

/-- Settles O19. -/
theorem additions : Obligations.Additions :=
  ⟨fun p hp => Modifies.of_arithCalc _ (exec_add p hp) (fun s a b _ => by rw [addCore_false]) fun _ _ _ h => h,
    fun p hp => Modifies.of_arithCalc _ (exec_adc p hp) (fun s a b _ => by rw [addCore_eq]) fun _ _ _ h => h⟩

/-- Settles O20. -/
theorem subtractions : Obligations.Subtractions :=
  ⟨fun p hp => Modifies.of_arithCalc _ (exec_sub p hp) (fun s a b _ => by rw [subCore_false]) fun _ _ _ h => h,
    fun p hp => Modifies.of_arithCalc _ (exec_sbb p hp) (fun s a b _ => by rw [subCore_eq]) fun _ _ _ h => h,
    fun p hp => Modifies.of_arithCalc _ (exec_sbr p hp) (fun s a b _ => by rw [subCore_false]) fun _ _ _ h => h,
    fun p hp => Writes.of_overflow _ (exec_neg p hp) (fun s a _ => by rw [zero_subCore]; rfl) (fun _ _ => ⟨rfl, rfl⟩)
      fun _ _ h => h⟩

/-- Settles O21. -/
theorem productsQuotients : Obligations.ProductsQuotients :=
  ⟨fun p hp => Modifies.of_arithCalc _ (exec_mul p hp) (fun s a b _ => by rw [mulCore_eq]; rfl) fun _ _ _ h => h,
    fun p hp => Modifies.of_arithCalc _ (exec_div p hp) (fun s a b h => by rw [divCore_of_ne_zero h.1]; rfl)
      fun _ _ _ h => h.2,
    fun p hp => Modifies.of_arithCalc _ (exec_dvr p hp) (fun s a b h => by rw [divCore_of_ne_zero h.1]; rfl)
      fun _ _ _ h => h.2,
    fun p hp => Modifies.of_arithCalc _ (exec_rem p hp) (fun s a b h => by rw [remCore_of_ne_zero h]; rfl)
      fun _ _ _ _ => rfl⟩

end Sys2Proof.Machine

/-!
Decimal arithmetic, integer conversions, shifts and rotates (R242 to R247, R277 to R283).
-/
namespace Sys2Proof.Machine

open Sys2Proof

/-! ## Decimal digits -/

theorem ofDecimal_beq_zero {n : Nat} (h : n < 100) : (ofDecimal n == 0) = (n == 0) := by
  rw [Bool.eq_iff_iff, beq_iff_eq, beq_iff_eq, ofDecimal, ← BitVec.toNat_inj, BitVec.toNat_ofNat]
  show (16 * (n / 10) + n % 10) % 2 ^ 8 = 0 ↔ n = 0
  omega

/-- A number below 100 packs into the nibbles of its digits. -/
theorem pack_digits {n hi lo : Nat} (hlo : lo < 10) (hhi : hi < 10) (hn : n = 10 * hi + lo) :
    16 * (n / 10) + n % 10 = hi % 16 * 16 + lo % 16 := by
  subst hn; omega

theorem pack_digits_int {n : Nat} {hi lo : Int} (hlo : 0 ≤ lo ∧ lo < 10) (hhi : 0 ≤ hi ∧ hi < 10)
    (hn : (n : Int) = 10 * hi + lo) : ((16 * (n / 10) + n % 10 : Nat) : Int) = hi % 16 * 16 + lo % 16 := by
  omega

/-- The digit formula of ADCD: each digit with its carry corrected by ten (R242). -/
theorem adcdCalc_of_digits {p : PsReg} {a b v : Byte} {lo hi : Nat} {c₁ c₂ : Bool}
    (h₁ : c₁ = decide (9 < a.toNat % 16 + b.toNat % 16 + p.fC.toNat))
    (hlo : lo = a.toNat % 16 + b.toNat % 16 + p.fC.toNat - (if c₁ then 10 else 0))
    (h₂ : c₂ = decide (9 < a.toNat / 16 + b.toNat / 16 + c₁.toNat))
    (hhi : hi = a.toNat / 16 + b.toNat / 16 + c₁.toNat - (if c₂ then 10 else 0))
    (hv : v = BitVec.ofNat 8 (hi % 16 * 16 + lo % 16)) :
    adcdCalc p a b = .done v (p.withArith c₂ false false (v == 0)) .none 0 := by
  have hcorrect : ∀ (c : Bool) (n : Nat), (if c then n - 10 else n) = n - if c then 10 else 0 := by
    intro c n; cases c <;> rfl
  subst h₁ hlo h₂ hhi hv
  simp only [adcdCalc, hcorrect]

/-- The digit formula of SBBD: each digit with its borrow corrected by ten (R243). -/
theorem sbbdCalc_of_digits {p : PsReg} {a b v : Byte} {lo hi : Int} {b₁ b₂ : Bool}
    (h₁ : b₁ = decide ((b.toNat % 16 : Nat) - (a.toNat % 16 : Nat) - (p.fC.toNat : Int) < 0))
    (hlo : lo = (b.toNat % 16 : Nat) - (a.toNat % 16 : Nat) - (p.fC.toNat : Int) + (if b₁ then 10 else 0))
    (h₂ : b₂ = decide ((b.toNat / 16 : Nat) - (a.toNat / 16 : Nat) - (b₁.toNat : Int) < 0))
    (hhi : hi = (b.toNat / 16 : Nat) - (a.toNat / 16 : Nat) - (b₁.toNat : Int) + (if b₂ then 10 else 0))
    (hv : v = BitVec.ofInt 8 (hi % 16 * 16 + lo % 16)) :
    sbbdCalc p a b = .done v (p.withArith b₂ false false (v == 0)) .none 0 := by
  have hcorrect : ∀ (c : Bool) (n : Int), (if c then n + 10 else n) = n + if c then 10 else 0 := by
    intro c n; cases c <;> simp
  subst h₁ hlo h₂ hhi hv
  simp only [sbbdCalc, hcorrect]

/-- On decimal digits ADCD is the decimal sum (R242). -/
theorem adcdCalc_of_decimal (p : PsReg) {a b : Byte} (ha : isDecimal a) (hb : isDecimal b) :
    adcdCalc p a b = .done (ofDecimal ((decimal a + decimal b + p.fC.toNat) % 100))
      (p.withArith (decide (100 ≤ decimal a + decimal b + p.fC.toNat)) false false
        ((decimal a + decimal b + p.fC.toNat) % 100 == 0)) .none 0 := by
  obtain ⟨ha₁, ha₀⟩ := ha
  obtain ⟨hb₁, hb₀⟩ := hb
  have hc : p.fC.toNat ≤ 1 := Bool.toNat_le _
  obtain ⟨c₁, h₁⟩ : ∃ c₁, c₁ = decide (9 < a.toNat % 16 + b.toNat % 16 + p.fC.toNat) := ⟨_, rfl⟩
  obtain ⟨c₂, h₂⟩ : ∃ c₂, c₂ = decide (9 < a.toNat / 16 + b.toNat / 16 + c₁.toNat) := ⟨_, rfl⟩
  have hcarry : decide (100 ≤ decimal a + decimal b + p.fC.toNat) = c₂ := by
    unfold decimal
    cases c₁ <;> cases c₂ <;>
    · simp only [true_eq_decide_iff, false_eq_decide_iff, Bool.toNat_true, Bool.toNat_false] at h₁ h₂
      simp only [decide_eq_true_eq, decide_eq_false_iff_not]
      omega
  rw [← ofDecimal_beq_zero (Nat.mod_lt _ (by decide)), hcarry]
  refine adcdCalc_of_digits h₁ rfl h₂ rfl ?_
  unfold decimal ofDecimal
  cases c₁ <;> cases c₂ <;>
  · simp only [true_eq_decide_iff, false_eq_decide_iff, Bool.toNat_true, Bool.toNat_false] at h₁ h₂
    simp only [if_true, Bool.false_eq_true, if_false, Bool.toNat_true, Bool.toNat_false]
    exact congrArg (BitVec.ofNat 8) (pack_digits (by omega) (by omega) (by omega))

/-- On decimal digits SBBD is the decimal difference (R243). -/
theorem sbbdCalc_of_decimal (p : PsReg) {a b : Byte} (ha : isDecimal a) (hb : isDecimal b) :
    sbbdCalc p a b = .done (ofDecimal (((decimal b : Int) - decimal a - p.fC.toNat) % 100).toNat)
      (p.withArith (decide (decimal b < decimal a + p.fC.toNat)) false false
        (((decimal b : Int) - decimal a - p.fC.toNat) % 100 == 0)) .none 0 := by
  obtain ⟨ha₁, ha₀⟩ := ha
  obtain ⟨hb₁, hb₀⟩ := hb
  have hc : p.fC.toNat ≤ 1 := Bool.toNat_le _
  have hzero : (((decimal b : Int) - decimal a - p.fC.toNat) % 100 == 0) =
      (ofDecimal (((decimal b : Int) - decimal a - p.fC.toNat) % 100).toNat == 0) := by
    rw [ofDecimal_beq_zero (by omega), Bool.eq_iff_iff, beq_iff_eq, beq_iff_eq]
    omega
  obtain ⟨b₁, h₁⟩ : ∃ b₁, b₁ = decide ((b.toNat % 16 : Nat) - (a.toNat % 16 : Nat) - (p.fC.toNat : Int) < 0) := ⟨_, rfl⟩
  obtain ⟨b₂, h₂⟩ : ∃ b₂, b₂ = decide ((b.toNat / 16 : Nat) - (a.toNat / 16 : Nat) - (b₁.toNat : Int) < 0) := ⟨_, rfl⟩
  have hborrow : decide (decimal b < decimal a + p.fC.toNat) = b₂ := by
    unfold decimal
    cases b₁ <;> cases b₂ <;>
    · simp only [true_eq_decide_iff, false_eq_decide_iff, Bool.toNat_true, Bool.toNat_false] at h₁ h₂
      simp only [decide_eq_true_eq, decide_eq_false_iff_not]
      omega
  rw [hzero, hborrow]
  refine sbbdCalc_of_digits h₁ rfl h₂ rfl ?_
  rw [ofDecimal, ← BitVec.ofInt_natCast]
  unfold decimal
  cases b₁ <;> cases b₂ <;>
  · simp only [true_eq_decide_iff, false_eq_decide_iff, Bool.toNat_true, Bool.toNat_false] at h₁ h₂
    simp only [if_true, Bool.false_eq_true, if_false, Bool.toNat_true, Bool.toNat_false]
    exact congrArg (BitVec.ofInt 8) (pack_digits_int (by omega) (by omega) (by omega))

/-- Settles O25. -/
theorem decimals : Obligations.Decimals :=
  ⟨Modifies.of (fun s => adcdCalc s.ps) (fun _ _ _ => rfl) fun s _ _ h =>
      ⟨.none, adcdCalc_of_decimal s.ps h.1 h.2, rfl⟩,
    Modifies.of (fun s => sbbdCalc s.ps) (fun _ _ _ => rfl) fun s _ _ h =>
      ⟨.none, sbbdCalc_of_decimal s.ps h.1 h.2, rfl⟩,
    fun _ _ _ _ _ => Modifies.of (fun s => adcdCalc s.ps) (fun _ _ _ => rfl) fun _ _ _ ⟨h₁, hlo, h₂, hhi, hv⟩ =>
      ⟨.none, adcdCalc_of_digits h₁ hlo h₂ hhi hv, rfl⟩,
    fun _ _ _ _ _ => Modifies.of (fun s => sbbdCalc s.ps) (fun _ _ _ => rfl) fun _ _ _ ⟨h₁, hlo, h₂, hhi, hv⟩ =>
      ⟨.none, sbbdCalc_of_digits h₁ hlo h₂ hhi hv, rfl⟩⟩

/-! ## Conversions between the integers -/

theorem exec_widen : ∀ p ∈ [(OpType.b, Instr.cvbw), (.h, .cvhw)], ∀ src des s,
    exec (p.2 src des) s = runPlain (p.2 src des) (writeBody p.1 .w (widenCalc 32 s.ps) src des) s := by
  simp only [List.forall_mem_cons, List.not_mem_nil, false_imp_iff, implies_true, and_true]
  exact ⟨fun _ _ _ => rfl, fun _ _ _ => rfl⟩

theorem exec_narrow : ∀ p ∈ [(OpType.b, Instr.cvwb), (.h, .cvwh)], ∀ src des s,
    exec (p.2 src des) s = runPlain (p.2 src des) (writeBody .w p.1 (narrowCalc p.1.bits s.ps) src des) s := by
  simp only [List.forall_mem_cons, List.not_mem_nil, false_imp_iff, implies_true, and_true]
  exact ⟨fun _ _ _ => rfl, fun _ _ _ => rfl⟩

/-- Settles O26. -/
theorem integerConversions : Obligations.IntegerConversions :=
  ⟨fun p hp => Writes.of _ (exec_widen p hp) fun _ _ _ => ⟨.none, rfl, quietSignal_none _⟩,
    fun p hp => Writes.of_overflow _ (exec_narrow p hp) (fun _ _ _ => rfl) (fun _ _ => ⟨rfl, rfl⟩) fun _ _ h => h⟩

/-! ## Shifts -/

theorem exec_sft : ∀ p ∈ [(OpType.b, Instr.sftb), (.h, .sfth), (.w, .sftw)], ∀ src des s,
    exec (p.2 src des) s = runPlain (p.2 src des) (modifyBody .b p.1 (sftCalc s.ps) src des) s :=
  forall_mem_triple (fun _ _ _ => rfl) (fun _ _ _ => rfl) (fun _ _ _ => rfl)

theorem exec_sfa : ∀ p ∈ [(OpType.b, Instr.sfab), (.h, .sfah), (.w, .sfaw)], ∀ src des s,
    exec (p.2 src des) s = runPlain (p.2 src des) (modifyBody .b p.1 (sfaCalc s.ps) src des) s :=
  forall_mem_triple (fun _ _ _ => rfl) (fun _ _ _ => rfl) (fun _ _ _ => rfl)

theorem exec_rot : ∀ p ∈ [(OpType.b, Instr.rotb), (.h, .roth), (.w, .rotw)], ∀ src des s,
    exec (p.2 src des) s = runPlain (p.2 src des) (modifyBody .b p.1 (rotCalc s.cfg.rot s.ps) src des) s :=
  forall_mem_triple (fun _ _ _ => rfl) (fun _ _ _ => rfl) (fun _ _ _ => rfl)

section
variable {w : Nat} (b : BitVec w) (m : Nat)

/-- The last bit shifted out on the left is bit `w` of the exact product. -/
theorem shiftLeft_eq : shiftLeft b m = (b <<< m, (b.toNat * 2 ^ m).testBit w) := by
  rw [shiftLeft, ← Nat.shiftLeft_eq, Nat.testBit_shiftLeft]
  rfl

theorem shiftRightLogical_eq (hm : 0 < m) : shiftRightLogical b m = (b >>> m, b.toNat.testBit (m - 1)) := by
  rw [shiftRightLogical, BitVec.testBit_toNat]
  by_cases h : m ≤ w
  · simp only [h, decide_true, Bool.true_and]
  · simp only [h, decide_false, Bool.false_and, BitVec.getLsbD_of_ge b (m - 1) (by omega)]

theorem getLsbD_zero_eq (hw : 0 < w) : b.getLsbD 0 = decide (b.toInt % 2 = 1) := by
  have hpow : 2 ^ w = 2 * 2 ^ (w - 1) := by rw [← pow_succ', Nat.sub_add_cancel hw]
  rw [← BitVec.testBit_toNat, Nat.testBit_zero, BitVec.toInt_eq_toNat_cond, hpow]
  split <;> · apply decide_eq_decide.2; omega

theorem shiftRightArith_eq (hw : 0 < w) (hm : 0 < m) :
    shiftRightArith b m = (BitVec.ofInt w (b.toInt / 2 ^ m), decide (b.toInt / 2 ^ (m - 1) % 2 = 1)) := by
  have hdiv : ∀ n : Nat, b.toInt / 2 ^ n = b.toInt >>> n := fun n => by rw [Int.shiftRight_eq_div_pow]; norm_cast
  have hbit : decide (b.toInt / 2 ^ (m - 1) % 2 = 1) = (b.sshiftRight (m - 1)).getLsbD 0 := by
    rw [getLsbD_zero_eq _ hw, BitVec.toInt_sshiftRight, hdiv]
  have hle : (m ≤ w) = (m - 1 < w) := by apply propext; omega
  rw [hbit, BitVec.getLsbD_sshiftRight, shiftRightArith, hdiv, BitVec.sshiftRight]
  simp [hw.ne', hle]

end

/-- SFT stores the shifted operand, C being the last bit shifted out (R277). -/
theorem sftCalc_eq {w : Nat} (p : PsReg) (a : Byte) (b : BitVec w) :
    sftCalc p a b =
      shiftCalc p (if 0 ≤ a.toInt then b <<< a.toInt.toNat else b >>> (-a.toInt).toNat,
        if a.toInt = 0 then b.getLsbD 0
        else if 0 < a.toInt then (b.toNat * 2 ^ a.toInt.toNat).testBit w
        else b.toNat.testBit ((-a.toInt).toNat - 1)) := by
  unfold sftCalc
  dsimp only
  rcases lt_trichotomy a.toInt 0 with h | h | h
  · rw [if_neg h.ne, if_neg h.not_gt, if_neg h.not_ge, if_neg h.ne, if_neg h.not_gt, shiftRightLogical_eq _ _ (by omega)]
  · simp [h]
  · rw [if_neg h.ne', if_pos h, if_pos h.le, if_neg h.ne', if_pos h, shiftLeft_eq]

/-- The shifted operand of SFA and the last bit shifted out (R280). -/
theorem sfa_shift_eq {w : Nat} (hw : 0 < w) (k : Int) (b : BitVec w) :
    (if k = 0 then (b, b.getLsbD 0) else if 0 < k then shiftLeft b k.toNat else shiftRightArith b (-k).toNat) =
      (if 0 ≤ k then b <<< k.toNat else BitVec.ofInt w (b.toInt / 2 ^ (-k).toNat),
        if k = 0 then b.getLsbD 0
        else if 0 < k then (b.toNat * 2 ^ k.toNat).testBit w
        else decide (b.toInt / 2 ^ ((-k).toNat - 1) % 2 = 1)) := by
  rcases lt_trichotomy k 0 with h | h | h
  · rw [if_neg h.ne, if_neg h.not_gt, if_neg h.not_ge, if_neg h.ne, if_neg h.not_gt,
      shiftRightArith_eq _ _ hw (by omega)]
  · simp [h]
  · rw [if_neg h.ne', if_pos h, if_pos h.le, if_neg h.ne', if_pos h, shiftLeft_eq]

theorem bits_pos (t : OpType) : 0 < t.bits := by cases t <;> decide

theorem sfaCalc_eq (t : OpType) (p : PsReg) (a : Byte) (b : BitVec t.bits) :
    sfaCalc p a b = arithCalc p
      ⟨if 0 ≤ a.toInt then b <<< a.toInt.toNat else BitVec.ofInt _ (b.toInt / 2 ^ (-a.toInt).toNat),
        if a.toInt = 0 then b.getLsbD 0
        else if 0 < a.toInt then (b.toNat * 2 ^ a.toInt.toNat).testBit t.bits
        else decide (b.toInt / 2 ^ ((-a.toInt).toNat - 1) % 2 = 1),
        decide (0 < a.toInt) && outOfRange t.bits (b.toInt * 2 ^ a.toInt.toNat), decide (b.toInt < 0),
        (if 0 ≤ a.toInt then b <<< a.toInt.toNat else BitVec.ofInt _ (b.toInt / 2 ^ (-a.toInt).toNat)) == 0⟩ := by
  unfold sfaCalc
  simp only [sfa_shift_eq (bits_pos t)]
  rfl

/-- Settles O28. -/
theorem shifts : Obligations.Shifts :=
  ⟨fun p hp => Modifies.of _ (exec_sft p hp) fun s a b _ => ⟨.none, sftCalc_eq s.ps a b, quietSignal_none _⟩,
    fun p hp => Modifies.of_arithCalc _ (exec_sfa p hp) (fun s a b _ => sfaCalc_eq p.1 s.ps a b) fun _ _ _ h => h⟩

/-! ## Rotates -/

/-- Bit `i` of a rotation to the right is bit `i + m` of the operand, modulo the width. -/
theorem getLsbD_rotateRight_mod {w : Nat} (b : BitVec w) (m : Nat) {i : Nat} (hi : i < w) :
    (b.rotateRight (m % w)).getLsbD i = b.getLsbD (((i : Int) + m) % w).toNat := by
  have hm : m % w < w := Nat.mod_lt _ (by omega)
  have hplace : ((i : Int) + m) % w = ((i + m % w) % w : Nat) := by push_cast; rw [Int.add_emod_emod]
  rw [BitVec.getLsbD_rotateRight, Nat.mod_eq_of_lt hm, hplace, Int.toNat_natCast]
  generalize m % w = r at hm
  by_cases h : i < w - r
  · rw [Nat.mod_eq_of_lt (by omega), Nat.add_comm i]
    simp [h]
  · rw [Nat.mod_eq_sub_mod (by omega), Nat.mod_eq_of_lt (by omega), show i + r - w = i - (w - r) by omega]
    simp [h, hi]

/-- Bit `i` of a rotation to the left is bit `i - m` of the operand, modulo the width. -/
theorem getLsbD_rotateLeft_mod {w : Nat} (b : BitVec w) (m : Nat) {i : Nat} (hi : i < w) :
    (b.rotateLeft (m % w)).getLsbD i = b.getLsbD (((i : Int) - m) % w).toNat := by
  have hm : m % w < w := Nat.mod_lt _ (by omega)
  rw [BitVec.getLsbD_rotateLeft, Nat.mod_eq_of_lt hm, ← Int.sub_emod_emod (n := (m : Int)), ← Int.natCast_emod]
  by_cases h : i < m % w
  · rw [← Int.add_emod_right, Int.emod_eq_of_lt (by omega) (by omega),
      show ((i : Int) - (m % w : Nat) + w).toNat = w - m % w + i by omega]
    simp [h]
  · rw [Int.emod_eq_of_lt (by omega) (by omega), show ((i : Int) - (m % w : Nat)).toNat = i - m % w by omega]
    simp [h, hi]

/-- The rotation by a signed count that moves bit `i + k` to bit `i`, with the last bit that went round. -/
theorem rotation_eq {w : Nat} {b v : BitVec w} {k : Int}
    (hv : ∀ i : Nat, i < w → v.getLsbD i = b.getLsbD (((i : Int) + k) % (w : Int)).toNat) :
    (if k = 0 then (b, b.getLsbD 0) else if 0 < k then rotRight b k.toNat else rotLeft b (-k).toNat) =
      (v, if 0 < k then v.msb else v.getLsbD 0) := by
  rcases lt_trichotomy k 0 with h | h | h
  · have hres : b.rotateLeft ((-k).toNat % w) = v := BitVec.eq_of_getLsbD_eq fun i hi => by
      rw [hv i hi, getLsbD_rotateLeft_mod b _ hi, show (i : Int) - ((-k).toNat : Nat) = i + k by omega]
    rw [if_neg h.ne, if_neg h.not_gt, if_neg h.not_gt, rotLeft, hres]
  · have hres : b = v := BitVec.eq_of_getLsbD_eq fun i hi => by
      rw [hv i hi, h, Int.add_zero, Int.emod_eq_of_lt (by omega) (by omega), Int.toNat_natCast]
    rw [if_pos h, hres, if_neg (by omega)]
  · have hres : b.rotateRight (k.toNat % w) = v := BitVec.eq_of_getLsbD_eq fun i hi => by
      rw [hv i hi, getLsbD_rotateRight_mod b _ hi, Int.toNat_of_nonneg h.le]
    rw [if_neg h.ne', if_pos h, if_pos h, rotRight, hres]

theorem rotCalc_eq {w : Nat} (dir : RotDirection) (p : PsReg) (a : Byte) (b v : BitVec w) {k : Int}
    (hk : k = if dir = .positiveRight then a.toInt else -a.toInt)
    (hv : ∀ i : Nat, i < w → v.getLsbD i = b.getLsbD (((i : Int) + k) % (w : Int)).toNat) :
    rotCalc dir p a b = shiftCalc p (v, if 0 < k then v.msb else v.getLsbD 0) := by
  cases dir <;>
  · subst hk
    exact congrArg (shiftCalc p) (rotation_eq hv)

/-- Settles O29. -/
theorem rotates : Obligations.Rotates := fun p hp _ v =>
  Modifies.of (fun s => rotCalc s.cfg.rot s.ps) (exec_rot p hp) fun s a b h =>
    ⟨.none, rotCalc_eq s.cfg.rot s.ps a b v h.1 h.2, quietSignal_none _⟩

end Sys2Proof.Machine

/-!
Operands (R150 to R181, R191, R80): what each mode gives where its accesses are there, what evaluation leaves alone, and
what reading and storing an operand do to the storage it names.
-/
namespace Sys2Proof.Machine

open Sys2Proof

/-! ## Accesses -/

theorem checkAccess_present_iff {memSize a n : Nat} :
    checkAccess memSize a n = .present ↔ a + n ≤ memSize ∧ a + n ≤ 2 ^ 32 := by
  unfold checkAccess
  split_ifs <;> simp <;> omega

theorem checkAccess_absent_iff {memSize a n : Nat} :
    checkAccess memSize a n = .absent ↔ memSize < 2 ^ 32 ∧ memSize < a + n := by
  unfold checkAccess
  split_ifs <;> simp <;> omega

theorem checkAccess_addressError_iff {memSize a n : Nat} :
    checkAccess memSize a n = .addressError ↔ 2 ^ 32 ≤ memSize ∧ 2 ^ 32 < a + n := by
  unfold checkAccess
  split_ifs <;> simp <;> omega

section
variable {s : State} {a : Word} {n : Nat}

theorem loadN_of_present (hb : s.bus = []) (h : checkAccess s.cfg.memSize a.toNat n = .present) :
    loadN a n s = .ok (s.mem.readN a.toNat n) s := (loadN_eq_ok hb).2 ⟨h, rfl, rfl⟩

theorem storeN_of_present (hb : s.bus = []) (h : checkAccess s.cfg.memSize a.toNat n = .present) (v : Nat) :
    storeN a n v s = .ok () (s.poke a.toNat n v) := (storeN_eq_ok hb).2 ⟨h, rfl⟩

theorem loadN_of_addressError (h : checkAccess s.cfg.memSize a.toNat n = .addressError) :
    loadN a n s = .trap 11 s.pc s := by rw [loadN, h]

theorem storeN_of_addressError (h : checkAccess s.cfg.memSize a.toNat n = .addressError) (v : Nat) :
    storeN a n v s = .trap 11 s.pc s := by rw [storeN, h]

theorem pointer_of_present (hb : s.bus = []) (h : checkAccess s.cfg.memSize a.toNat 4 = .present) :
    pointer a s = .ok (.mem (BitVec.ofNat 32 (s.mem.readN a.toNat 4))) s := by
  rw [pointer, Flow.bind_of_ok _ (loadN_of_present hb h)]

theorem pointer_of_addressError (h : checkAccess s.cfg.memSize a.toNat 4 = .addressError) :
    pointer a s = .trap 11 s.pc s := by
  rw [pointer, loadN_of_addressError h]; rfl

end

theorem Flow.bind_of_trap {α β : Type} {x : Flow α} (f : α → State → Flow β) {n : Nat} {a : Word} {s : State}
    (h : x = .trap n a s) : x.bind f = .trap n a s := by rw [h]; rfl

/-! ## Address sums -/

section
variable {w : Nat} {base : Word} {off : BitVec w} {s : State}

/-- An effective address inside the address space is the sum modulo `2 ^ 32`. -/
theorem sumAddress_of_inside (h0 : 0 ≤ (base.toNat : Int) + off.toInt) (h1 : (base.toNat : Int) + off.toInt < 2 ^ 32) :
    sumAddress base off.toInt s = .ok (base + off.signExtend 32) s := by
  have hsum : BitVec.ofInt 32 (base.toNat + off.toInt) = base + off.signExtend 32 := by
    rw [BitVec.ofInt_add, BitVec.ofInt_natCast, BitVec.ofNat_toNat, BitVec.setWidth_eq]; rfl
  simp only [sumAddress, h0, h1, and_self, if_true, hsum]

theorem sumAddress_of_outside (h : (base.toNat : Int) + off.toInt < 0 ∨ 2 ^ 32 ≤ (base.toNat : Int) + off.toInt) :
    sumAddress base off.toInt s = .trap 11 s.pc s := by
  have hno : ¬ (0 ≤ (base.toNat : Int) + off.toInt ∧ (base.toNat : Int) + off.toInt < 2 ^ 32) := by omega
  simp only [sumAddress, if_neg hno]

theorem atSum_of_inside (h0 : 0 ≤ (base.toNat : Int) + off.toInt) (h1 : (base.toNat : Int) + off.toInt < 2 ^ 32) :
    atSum base off.toInt s = .ok (.mem (base + off.signExtend 32)) s := by
  rw [atSum, Flow.bind_of_ok _ (sumAddress_of_inside h0 h1)]

theorem throughSum_of_inside (h0 : 0 ≤ (base.toNat : Int) + off.toInt) (h1 : (base.toNat : Int) + off.toInt < 2 ^ 32) :
    throughSum base off.toInt s = pointer (base + off.signExtend 32) s := by
  rw [throughSum, Flow.bind_of_ok _ (sumAddress_of_inside h0 h1)]

theorem atSum_of_outside (h : (base.toNat : Int) + off.toInt < 0 ∨ 2 ^ 32 ≤ (base.toNat : Int) + off.toInt) :
    atSum base off.toInt s = .trap 11 s.pc s := Flow.bind_of_trap _ (sumAddress_of_outside h)

theorem throughSum_of_outside (h : (base.toNat : Int) + off.toInt < 0 ∨ 2 ^ 32 ≤ (base.toNat : Int) + off.toInt) :
    throughSum base off.toInt s = .trap 11 s.pc s := Flow.bind_of_trap _ (sumAddress_of_outside h)

end

/-! ## Literals -/

/-- A literal is its 6-bit signed value, as an integer of any length and as a real (R161). -/
theorem literalValue_toInt : ∀ k : BitVec 6,
    (literalValue .b k).toInt = k.toInt ∧ (literalValue .h k).toInt = k.toInt ∧ (literalValue .w k).toInt = k.toInt ∧
      ((Fmt.value .real (literalValue .r k).toNat).eq (.fin k.msb k.toInt.natAbs 0)) = true ∧
      ((Fmt.value .long (literalValue .l k).toNat).eq (.fin k.msb k.toInt.natAbs 0)) = true := by
  decide +kernel

/-! ## Evaluation and its frame -/

/-- Settles O14. -/
theorem operandFrame : Obligations.OperandFrame := by
  intro role len sp0 w r l s t h
  have hc := evalRef_control h
  refine ⟨hc.pc, hc.pastEnd, hc.ps, hc.fr, hc.cr, hc.pi, hc.oe, hc.ie, fun hr => evalRef_sp h hr,
    fun n hn => evalRef_regs h hn, fun hb => ?_⟩
  rw [evalRef_frame hb h]
  exact ⟨⟨rfl, rfl, rfl, rfl, rfl, rfl, rfl, rfl, rfl, rfl, rfl, rfl, rfl, rfl, rfl, rfl, rfl, rfl⟩, rfl, rfl⟩

theorem bits_le (t : OpType) : t.bits ≤ 64 := by cases t <;> decide

theorem toNat_lt_pow_len (t : OpType) (v : BitVec t.bits) : v.toNat < 256 ^ t.len :=
  lt_of_lt_of_eq v.isLt (Nat.pow_mul 2 8 t.len)

/-- A popped operand is what the stack's top was, whatever happens to memory afterwards (R176). -/
theorem evalRef_pop {t : OpType} {sp0 w : Word} {s : State} (hb : s.bus = [])
    (h : checkAccess s.cfg.memSize s.sp.toNat t.len = .present) :
    evalRef .src t.len sp0 w .stk s =
      .ok (.imm (BitVec.ofNat 64 (s.mem.readN s.sp.toNat t.len))) { s with sp := s.sp + BitVec.ofNat 32 t.len } :=
  Flow.bind_of_ok _ ((popN_eq_ok hb).2 ⟨h, rfl, rfl⟩)

theorem readLoc_popped (t : OpType) (v : Nat) (u : State) :
    readLoc t (.imm (BitVec.ofNat 64 v)) u = .ok (BitVec.ofNat t.bits v) u :=
  congrArg (Flow.ok · u) (BitVec.setWidth_ofNat_of_le (bits_le t) v)

/-- A store undisturbed reads back, and leaves every other byte. -/
theorem poke_reads (t : OpType) {s : State} (hw : s.mem.wf = true) (a : Nat) (v : BitVec t.bits) :
    (s.poke a t.len v.toNat).mem.readN a t.len = v.toNat ∧
      ∀ x, x < a ∨ a + t.len ≤ x → (s.poke a t.len v.toNat).mem.read x = s.mem.read x :=
  ⟨(Memory.readN_writeN _ _ _ hw).trans (Nat.mod_eq_of_lt (toNat_lt_pow_len t v)),
    fun x hx => Memory.read_writeN_other _ _ _ x hw hx⟩

/-- Settles O15. -/
theorem stackModes : Obligations.StackModes := by
  refine ⟨fun t sp0 w s hb h => ⟨_, evalRef_pop hb h, readLoc_popped t _⟩, fun t sp0 w s => ⟨rfl, rfl⟩,
    fun t sp0 w v s hb hw h => ⟨rfl, _, (pushN_eq_ok hb).2 ⟨h, rfl⟩, rfl, ?_⟩⟩
  exact poke_reads t (s := { s with sp := s.sp - BitVec.ofNat 32 t.len }) hw _ v

/-- Settles O17. -/
theorem operandStorage : Obligations.OperandStorage := by
  refine ⟨fun _ _ _ => ⟨checkAccess_present_iff, checkAccess_absent_iff⟩,
    fun m a n v hw => ⟨Memory.wf_writeN n a v hw, Memory.readN_writeN n a v hw,
      fun i hi => Memory.read_writeN n a v i hw hi, fun x hx => Memory.read_writeN_other n a v x hw hx⟩,
    fun t s => ⟨fun _ => rfl, fun _ => rfl, fun _ => rfl, fun _ _ => rfl, fun a hb h =>
      ⟨Flow.bind_of_ok _ (loadN_of_present hb h), fun v hw => ⟨_, storeN_of_present hb h _, rfl, ?_⟩⟩⟩⟩
  exact poke_reads t hw _ v

/-- Settles O41. -/
theorem targets : Obligations.Targets := fun _ _ _ =>
  ⟨fun _ => rfl, fun _ => rfl, fun _ => rfl, rfl, fun _ => rfl, fun _ _ _ h => Flow.bind_of_ok _ h⟩

/-- No byte is suspect among bytes that are all fresh. -/
theorem staleIn_eq_none {s : State} {a n : Nat} (h : ∀ x, a ≤ x → x < a + n → s.fetchFresh x = true) :
    s.staleIn a n = none := by
  unfold State.staleIn
  rw [List.find?_eq_none]
  intro x hx
  obtain ⟨i, hi, rfl⟩ := List.mem_map.1 hx
  rw [h (a + i) (by omega) (by have := List.mem_range.1 hi; omega)]
  decide

theorem evalSecond_of_fresh {role : Role} {k₁ k₂ : RefKind} {sp0 : Word} {src des : Ref} {s : State}
    (h : s.staleIn (s.pc.toNat + 1 + src.length k₁) (des.length k₂) = none) :
    evalSecond role k₁ k₂ sp0 src des s = evalRef role k₂.len sp0 (afterSpec2 s.pc k₁ src) des s := by
  rw [evalSecond, h]

/-- Settles O13. -/
theorem evaluatedModes : Obligations.EvaluatedModes := by
  refine ⟨literalValue_toInt, ?_, fun role len sp0 w s n => ⟨rfl, rfl, rfl, rfl, rfl, fun hb h => ?_, ?_, ?_, ?_, ?_,
    fun _ => rfl, fun _ => rfl, fun _ => rfl, fun a hb h => pointer_of_present hb h⟩, ?_, ?_⟩
  · simp only [List.forall_mem_cons, List.not_mem_nil, false_imp_iff, implies_true, and_true]
    exact ⟨fun t sp0 w s => ⟨fun _ => ⟨rfl, rfl⟩, fun _ => ⟨rfl, rfl⟩⟩,
      fun t sp0 w s => ⟨fun _ => ⟨rfl, rfl⟩, fun _ => ⟨rfl, rfl⟩⟩⟩
  · exact Flow.bind_of_ok _ (pointer_of_present hb h)
  · simp only [List.mem_cons, List.not_mem_nil, or_false, Prod.mk.injEq]
    rintro base r (⟨rfl, rfl⟩ | ⟨rfl, rfl⟩ | ⟨rfl, rfl⟩) off h0 h1 <;>
    · refine (atSum_of_inside h0 h1).trans ?_
      rw [BitVec.signExtend_eq]
  · simp only [List.mem_cons, List.not_mem_nil, or_false, Prod.mk.injEq]
    rintro base r (⟨rfl, rfl⟩ | ⟨rfl, rfl⟩ | ⟨rfl, rfl⟩) off h0 h1 <;> exact atSum_of_inside h0 h1
  · simp only [List.mem_cons, List.not_mem_nil, or_false, Prod.mk.injEq]
    rintro base r (⟨rfl, rfl⟩ | ⟨rfl, rfl⟩ | ⟨rfl, rfl⟩) off h0 h1 <;> exact atSum_of_inside h0 h1
  · simp only [List.mem_cons, List.not_mem_nil, or_false, Prod.mk.injEq]
    rintro base r (⟨rfl, rfl⟩ | ⟨rfl, rfl⟩ | ⟨rfl, rfl⟩) off h0 h1 hb h <;>
    · refine (throughSum_of_inside h0 h1).trans ?_
      rw [BitVec.signExtend_eq]
      exact pointer_of_present hb h
  · intro role k₁ k₂ sp0 src des s hfresh
    exact evalSecond_of_fresh (staleIn_eq_none (fun a h0 h1 => hfresh a h0 h1))
  · intro ts td role src des s s₁ s₂ l₁ l₂ h₁ h₂
    exact (Flow.bind_of_ok _ h₁).trans (Flow.bind_of_ok _ h₂)

/-! ## Bytes that are not there -/

theorem takeLE_of_short : ∀ {n : Nat} {bs : List Byte}, bs.length < n → takeLE n bs = none
  | _ + 1, [], _ => rfl
  | _ + 1, _ :: bs, h => by
    rw [takeLE, takeLE_of_short (bs := bs) (by simpa using h)]

/-- A reference whose offset is cut off counts the bytes that are there. -/
theorem refWith_of_short {n : Nat} {rest : List Byte} (mk : Nat → Ref) (h : rest.length < n) (hn : n ≤ 8)
    (k : RefKind) : ∃ m, refWith n mk rest = (.missing m, []) ∧ (Ref.missing m).length k = 1 + rest.length := by
  refine ⟨Fin.ofNat 9 (1 + rest.length), by rw [refWith, takeLE_of_short h], ?_⟩
  exact Nat.mod_eq_of_lt (by omega)

theorem decodeRef_of_ne_count {cfg : Params} {k : RefKind} (hk : k ≠ .count) (b : Byte) (rest : List Byte) :
    decodeRef cfg k (b :: rest) = decodeMode k b (tableSpec cfg b) rest := by
  unfold decodeRef
  dsimp only
  rw [if_neg (fun h => hk h.1)]

theorem len_le (t : OpType) : t.len ≤ 8 := by cases t <;> decide

/-- A specifier of `k` more bytes, fewer of which are there, decodes as a reference that is cut off. -/
theorem decodeRef_cutOff {cfg : Params} {b : Byte} {rest : List Byte} {t : OpType} {k : Nat}
    (h : (k = 1 ∧ ((tableSpec cfg b).toNat / 16 = 8 ∨ tableSpec cfg b ∈ [0xF0, 0xF4, 0xF8])) ∨
      (k = 2 ∧ ((tableSpec cfg b).toNat / 16 = 9 ∨ tableSpec cfg b ∈ [0xF1, 0xF5, 0xF9])) ∨
      (k = 4 ∧ ((tableSpec cfg b).toNat / 16 ∈ [10, 11] ∨ tableSpec cfg b ∈ [0xF2, 0xF3, 0xF6, 0xF7, 0xFA, 0xFB])) ∨
      (k = t.len ∧ tableSpec cfg b = 0xFD)) (hrest : rest.length < k) :
    ∃ n, decodeRef cfg (.value t) (b :: rest) = (.missing n, []) ∧
      (Ref.missing n).length (.value t) = 1 + rest.length := by
  have hmode : ∃ mk, decodeMode (.value t) b (tableSpec cfg b) rest = refWith k mk rest := by
    simp only [List.mem_cons, List.not_mem_nil, or_false] at h
    generalize tableSpec cfg b = s at h
    rcases h with ⟨rfl, h | rfl | rfl | rfl⟩ | ⟨rfl, h | rfl | rfl | rfl⟩ |
      ⟨rfl, (h | h) | rfl | rfl | rfl | rfl | rfl | rfl⟩ | ⟨rfl, rfl⟩
    case inr.inr.inr => exact ⟨_, rfl⟩
    case inl.inl | inr.inl.inl | inr.inr.inl.inl.inl | inr.inr.inl.inl.inr =>
      simp only [decodeMode, h]
      exact ⟨_, rfl⟩
    all_goals exact ⟨_, rfl⟩
  obtain ⟨mk, hmk⟩ := hmode
  have hk : k ≤ 8 := by have := len_le t; omega
  rw [decodeRef_of_ne_count (by simp), hmk]
  exact refWith_of_short mk hrest hk _

/-! ## What ends an instruction early -/

/-- A plain instruction whose body is cut short by an exception takes it (R498 item 1). -/
theorem runPlain_trap {i : Instr} {body : Word → State → Flow Done} {s s₁ : State} {n : Nat} {a : Word}
    (hr : Runs i s) (h : body (pcNext i s) s = .trap n a s₁) :
    runPlain i body s = takes n a (s₁.noteExecuted s.pc) := by
  rw [runPlain_runs hr, h]
  rfl

theorem runBranch_trap {i : Instr} {body : Word → Word → State → Flow Done} {s s₁ : State} {n : Nat} {a : Word}
    (hr : s.ps.rep = 0) (h : body (pcNext i s) (pcNext i s) s = .trap n a s₁) :
    runBranch i body s = takes n a (s₁.noteExecuted s.pc) := by
  rw [runBranch_once hr, h]
  rfl

/-- An instruction without references that only changes the state, which leaves nothing waiting. -/
theorem exec_simple {i : Instr} {act : State → State} {s : State} (hexec : exec i s = runPlain i (simpleBody act) s)
    (hr : Runs i s) (hs : (act s).Settled) : exec i s = .next ((act s).goesOn i s) := by
  rw [hexec, runPlain_runs hr]
  exact finish_onward (s₂ := act s) (q := (act s).ps) (sig := .none) (wrote := false) hs (fun h => by cases h) rfl

/-- The specifiers that end an instruction with an Operand Error at once (R119, R181, R400, R499). -/
theorem decodeRef_illegal {cfg : Params} {b : Byte} {k : RefKind} (hk : k ≠ .count) (himm : k.immLen = none)
    (h : tableSpec cfg b = 0xFD) (rest : List Byte) : decodeRef cfg k (b :: rest) = (.illegal b, rest) := by
  rw [decodeRef_of_ne_count hk, h]
  simp [decodeMode, decodeSpecial, himm]

/-- A pointer at a sum of a base and an offset, one byte of which is past `2 ^ 32 - 1`, wherever the sum lies. -/
theorem throughSum_of_addressError {base : Word} {off : BitVec 32} {s : State}
    (h : checkAccess s.cfg.memSize (base + off).toNat 4 = .addressError) :
    throughSum base off.toInt s = .trap 11 s.pc s := by
  by_cases hin : 0 ≤ (base.toNat : Int) + off.toInt ∧ (base.toNat : Int) + off.toInt < 2 ^ 32
  · rw [throughSum_of_inside hin.1 hin.2, BitVec.signExtend_eq]
    exact pointer_of_addressError h
  · exact throughSum_of_outside (by omega)

theorem popN_of_addressError {s : State} {n : Nat} (h : checkAccess s.cfg.memSize s.sp.toNat n = .addressError) :
    popN n s = .trap 11 s.pc s := Flow.bind_of_trap _ (loadN_of_addressError h)

/-- A push has moved SP before its Address Error (log 32). -/
theorem pushN_of_addressError {s : State} {n : Nat}
    (h : checkAccess s.cfg.memSize (s.sp - BitVec.ofNat 32 n).toNat n = .addressError) (v : Nat) :
    pushN n v s = .trap 11 s.pc { s with sp := s.sp - BitVec.ofNat 32 n } :=
  storeN_of_addressError (s := { s with sp := s.sp - BitVec.ofNat 32 n }) h v

/-! The bodies of the shapes, part by part. -/

section
variable {ts td : OpType} {src des : Ref} {next : Word} {s s₁ s₂ s₃ : State} {l₁ l₂ : Loc} {n : Nat} {w : Word}
  {a : BitVec ts.bits} {b : BitVec td.bits}

theorem modifyBody_of_evalBoth (op : BitVec ts.bits → BitVec td.bits → Calc td.bits)
    (he : evalBoth ts td .modify src des s = .ok (l₁, l₂) s₁) :
    modifyBody ts td op src des next s =
      (readLoc ts l₁ s₁).bind fun a s => (readLoc td l₂ s).bind fun b s =>
        settle td l₂ (Done.plain next (popsStack src)) (op a b) s := Flow.bind_of_ok _ he

theorem writeBody_of_evalBoth (op : BitVec ts.bits → Calc td.bits)
    (he : evalBoth ts td .write src des s = .ok (l₁, l₂) s₁) :
    writeBody ts td op src des next s =
      (readLoc ts l₁ s₁).bind fun a s =>
        settle td l₂ (Done.plain next (popsStack src || popsStack des)) (op a) s := Flow.bind_of_ok _ he

theorem lookBody_of_evalBoth (act : BitVec ts.bits → BitVec td.bits → Done → State → Flow Done)
    (he : evalBoth ts td .look src des s = .ok (l₁, l₂) s₁) :
    lookBody ts td act src des next s =
      (readLoc ts l₁ s₁).bind fun a s => (readLoc td l₂ s).bind fun b s =>
        act a b (Done.plain next (popsStack src)) s := Flow.bind_of_ok _ he

end

/-- Storing a moved value raises what the store raises. -/
theorem settle_move_trap {t : OpType} {l : Loc} {d : Done} {p : PsReg} {v : BitVec t.bits} {s s₁ : State} {n : Nat}
    {a : Word} (h : writeLoc t l v s = .trap n a s₁) : settle t l d (moveCalc p v) s = .trap n a s₁ :=
  Flow.bind_of_trap _ h

/-- Settles O16. -/
theorem operandErrors : Obligations.OperandErrors := by
  refine ⟨fun len sp0 w s => ⟨?_, fun _ => rfl, fun _ _ => rfl, fun role n base => ⟨?_, ?_, ?_, fun h => ?_, fun h => ?_, ?_⟩⟩,
    fun _ _ _ => checkAccess_addressError_iff, fun t s => ⟨fun a h => ⟨?_, fun v => ?_⟩, fun h _ _ => ?_, fun h v => ?_⟩,
    fun s => ⟨fun h => ?_, fun h v => ?_⟩, fun cfg b rest => ⟨fun t h => ⟨?_, ?_⟩, fun h => ?_, fun t k h hr => ?_⟩,
    fun _ _ _ _ _ _ h => if_pos h, fun s hpc hr hs => ?_, fun s hp hpc hm hi he => ?_, fun src des s s₁ n a hr => ?_,
    fun src des s s₁ s₂ l₁ l₂ n a hr => ⟨fun he => ⟨fun h => ?_, fun v s₀ h h' => ?_⟩,
      fun he => ⟨fun h => ?_, fun v s₀ h h' => ?_⟩, fun he v s₀ h h' => ?_⟩⟩
  · simp only [List.forall_mem_cons, List.not_mem_nil, false_imp_iff, implies_true, and_true]
    exact ⟨⟨fun _ => rfl, fun _ => rfl⟩, ⟨fun _ => rfl, fun _ => rfl⟩⟩
  · simp only [List.mem_cons, List.not_mem_nil, or_false, Prod.mk.injEq]
    rintro r (⟨rfl, rfl⟩ | ⟨rfl, rfl⟩ | ⟨rfl, rfl⟩ | ⟨rfl, rfl⟩ | ⟨rfl, rfl⟩ | ⟨rfl, rfl⟩) off h
    · exact atSum_of_outside h
    · exact atSum_of_outside h
    · exact atSum_of_outside h
    · exact throughSum_of_outside h
    · exact throughSum_of_outside h
    · exact throughSum_of_outside h
  · simp only [List.mem_cons, List.not_mem_nil, or_false, Prod.mk.injEq]
    rintro r (⟨rfl, rfl⟩ | ⟨rfl, rfl⟩ | ⟨rfl, rfl⟩) off h <;> exact atSum_of_outside h
  · simp only [List.mem_cons, List.not_mem_nil, or_false, Prod.mk.injEq]
    rintro r (⟨rfl, rfl⟩ | ⟨rfl, rfl⟩ | ⟨rfl, rfl⟩) off h <;> exact atSum_of_outside h
  · exact Flow.bind_of_trap _ (pointer_of_addressError h)
  · exact pointer_of_addressError h
  · simp only [List.mem_cons, List.not_mem_nil, or_false, Prod.mk.injEq]
    rintro r (⟨rfl, rfl⟩ | ⟨rfl, rfl⟩ | ⟨rfl, rfl⟩) off h <;> exact throughSum_of_addressError h
  · exact Flow.bind_of_trap _ (loadN_of_addressError h)
  · exact storeN_of_addressError h _
  · exact Flow.bind_of_trap _ (popN_of_addressError h)
  · exact pushN_of_addressError h _
  · exact Flow.bind_of_trap _ (popN_of_addressError h)
  · exact pushN_of_addressError h _
  · exact decodeRef_illegal (by simp) rfl h rest
  · exact decodeRef_illegal (by simp) rfl h rest
  · exact if_pos ⟨rfl, h⟩
  · exact decodeRef_cutOff h hr
  · refine ⟨_, exec_simple (act := id) rfl (.inl hr) hs, ?_⟩
    have hnext : pcNext .nop s = 0 := by rw [pcNext, hpc]; decide
    rw [State.goesOn, if_pos hr, hnext]
    refine ⟨rfl, ?_⟩
    show wraps s.pc 0 = true
    rw [hpc]
    decide
  · rw [step_of_events_nil he, processorStep, hi, hp]
    show fetchPast s = _
    rw [fetchPast, missingBytes, if_pos hm, hpc]
    rfl
  · refine ⟨fun h => ?_, fun h => ?_, fun h => ?_, fun s₀ t h₁ h₂ => ?_, fun h => ?_⟩
    · exact runPlain_trap (.inl hr) (Flow.bind_of_trap _ h)
    · exact runPlain_trap (.inl hr) (Flow.bind_of_trap _ h)
    · exact runPlain_trap (.inl hr) (Flow.bind_of_trap _ h)
    · exact runBranch_trap (body := fun _ ret => callBody src ret) hr ((Flow.bind_of_ok _ h₁).trans (Flow.bind_of_trap _ h₂))
    · exact runBranch_trap (body := fun _ _ => retBody) hr (Flow.bind_of_trap _ h)
  · exact runPlain_trap (.inl hr) ((writeBody_of_evalBoth _ he).trans (Flow.bind_of_trap _ h))
  · exact runPlain_trap (.inl hr) ((writeBody_of_evalBoth _ he).trans ((Flow.bind_of_ok _ h).trans (settle_move_trap h')))
  · exact runPlain_trap (.inl hr) ((modifyBody_of_evalBoth _ he).trans (Flow.bind_of_trap _ h))
  · exact runPlain_trap (.inl hr) ((modifyBody_of_evalBoth _ he).trans ((Flow.bind_of_ok _ h).trans (Flow.bind_of_trap _ h')))
  · exact runPlain_trap (.inl hr) ((lookBody_of_evalBoth _ he).trans ((Flow.bind_of_ok _ h).trans (Flow.bind_of_trap _ h')))

end Sys2Proof.Machine

/-!
Who changes what (R25, R93, R100, R495, R513, R516): the frames of the channel instructions and of the loads of Processor
registers, and from them what every instruction, every step and every other agent leaves alone.
-/
namespace Sys2Proof.Machine

open Sys2Proof

theorem Flow.Ends.mono {α : Type} {P Q : State → Prop} {x : Flow α} (h : x.Ends P) (hPQ : ∀ s, P s → Q s) :
    x.Ends Q := by
  cases x with
  | ok a s => exact hPQ s h
  | trap n a s => exact hPQ s h
  | fault f => trivial
  | refuse r => trivial

/-! ## What the system instructions write -/

/-- Only channel registers differ, and nothing on a link. -/
def SameButChannels (s t : State) : Prop :=
  t = { s with inp := t.inp, out := t.out } ∧ ∀ p, (t.outPort p).link = (s.outPort p).link

theorem sameButChannels_setIn (s : State) (i : Fin 11) (p : InPort) : SameButChannels s (s.setIn i p) :=
  ⟨rfl, fun _ => rfl⟩

theorem sameButChannels_setOut (s : State) (i : Fin 11) {p : OutPort} (hp : p.link = (s.outPort i).link) :
    SameButChannels s (s.setOut i p) := by
  refine ⟨rfl, fun j => ?_⟩
  rw [State.outPort_setOut]
  split
  · rename_i e; rw [hp, e]
  · rfl

theorem sameButChannels_mapOut (s : State) {f : Fin 11 → OutPort → OutPort} (hf : ∀ i p, (f i p).link = p.link) :
    SameButChannels s (s.mapOut f) :=
  ⟨rfl, fun j => by rw [State.outPort_mapOut, hf]⟩

theorem lptrAct_channels (a p : Word) (d : Done) (s : State) : (lptrAct a p d s).Ends (SameButChannels s) := by
  unfold lptrAct
  split
  · exact sameButChannels_setIn ..
  · split
    · trivial
    · exact sameButChannels_setOut _ _ rfl
  · trivial

theorem lcntAct_channels (n : Word) (p : Byte) (d : Done) (s : State) : (lcntAct n p d s).Ends (SameButChannels s) := by
  unfold lcntAct
  split
  · exact sameButChannels_setIn ..
  · split
    · trivial
    · exact sameButChannels_setOut _ _ rfl
  · trivial

theorem bptrAct_channels (a m : Word) (d : Done) (s : State) : (bptrAct a m d s).Ends (SameButChannels s) := by
  unfold bptrAct
  split
  · trivial
  · split
    · trivial
    · exact sameButChannels_mapOut s fun i p => by split <;> rfl

theorem bcntAct_channels (n m : Word) (d : Done) (s : State) : (bcntAct n m d s).Ends (SameButChannels s) := by
  unfold bcntAct
  split
  · trivial
  · split
    · trivial
    · exact sameButChannels_mapOut s fun i p => by split <;> rfl

/-- What loading a Processor register may change. -/
theorem setProcReg_frame {s t : State} {n : Nat} {v : Word} (h : s.setProcReg n v = some t) :
    t = { s with sp := t.sp, ps := t.ps, fr := t.fr, cr := t.cr, pi := t.pi, tr := t.tr, oe := t.oe, ie := t.ie } ∧
      t.cr.extractLsb' 24 8 = s.cr.extractLsb' 24 8 := by
  unfold State.setProcReg at h
  split at h <;> cases h
  case h_4 => exact ⟨rfl, by simp only [mergeCr]; exact BitVec.extractLsb'_append_eq_left⟩
  all_goals exact ⟨rfl, rfl⟩

/-- RSET leaves what is on a link (R470). -/
theorem link_rset (s : State) (p : Fin 11) : (s.rset.outPort p).link = (s.outPort p).link := by
  rw [State.outPort_rset]; rfl

/-! ## A property of registers that ordinary instructions do not write -/

/-- The registers that only the processor's system instructions write. -/
structure SameEnables (s t : State) : Prop where
  cr : t.cr = s.cr
  pi : t.pi = s.pi
  oe : t.oe = s.oe
  ie : t.ie = s.ie

theorem SameEnables.congr {s t u : State} (h : SameEnables s t) (hcr : u.cr = t.cr) (hpi : u.pi = t.pi)
    (hoe : u.oe = t.oe) (hie : u.ie = t.ie) : SameEnables s u :=
  ⟨hcr.trans h.cr, hpi.trans h.pi, hoe.trans h.oe, hie.trans h.ie⟩

theorem stable_enables (s : State) : Stable (fun _ => True) (SameEnables s) where
  turn _ _ e h :=
    have c := (letAgents_frame e).control
    h.congr c.cr c.pi c.oe c.ie
  reg _ _ _ _ h := h.congr rfl rfl rfl rfl
  sp _ _ _ h := h.congr rfl rfl rfl rfl
  pc _ _ _ h := h.congr rfl rfl rfl rfl
  ps _ _ h := h.congr rfl rfl rfl rfl
  fr _ _ h := h.congr rfl rfl rfl rfl
  mem _ _ _ _ h := h.congr rfl rfl rfl rfl
  fetch _ _ h := h.congr rfl rfl rfl rfl
  idle _ _ h := h.congr rfl rfl rfl rfl
  free _ _ h := h.congr rfl rfl rfl rfl
  ceLatch _ h := h.congr rfl rfl rfl rfl
  ueDone _ h := h.congr rfl rfl rfl rfl
  scramble t a n _ h :=
    h.congr (t.scramble_cr a n) (t.scramble_pi a n) (t.scramble_oe a n) (t.scramble_ie a n)

theorem SameEnables.channels {s t u : State} (h : SameEnables s t) (hu : SameButChannels t u) : SameEnables s u := by
  rw [hu.1]; exact h.congr rfl rfl rfl rfl

theorem keeps_enables {i : Instr} (hi : ∀ src des, i ≠ .ldpr src des) (s : State) :
    Keeps (fun _ => True) (SameEnables s) i where
  stable := stable_enables s
  error _ _ _ h := h.congr rfl rfl rfl rfl
  rset _ _ h := h.congr rfl rfl rfl rfl
  ldpr src des e := absurd e (hi src des)
  lptr _ _ _ a p d t h := (lptrAct_channels a p d t).mono fun _ => h.channels
  lcnt _ _ _ n p d t h := (lcntAct_channels n p d t).mono fun _ => h.channels
  bptr _ _ _ a m d t h := (bptrAct_channels a m d t).mono fun _ => h.channels
  bcnt _ _ _ n m d t h := (bcntAct_channels n m d t).mono fun _ => h.channels

/-- No agent is to move, and a part of the node that no ordinary instruction writes is as it was. -/
def QuietWith {α : Type} (f : State → α) (c : α) (t : State) : Prop := t.bus = [] ∧ f t = c

section
variable {α : Type} {f : State → α}
  (hf : ∀ s t : State, t.tr = s.tr → t.inp = s.inp → t.out = s.out → t.errorFlag = s.errorFlag → f t = f s)
include hf

theorem stable_quietWith (c : α) : Stable (fun _ => True) (QuietWith f c) where
  turn t u e h := by
    rw [letAgents_quiet h.1] at e
    cases e; exact h
  reg s _ _ _ h := ⟨h.1, by rw [← h.2]; exact hf s _ rfl rfl rfl rfl⟩
  sp s _ _ h := ⟨h.1, by rw [← h.2]; exact hf s _ rfl rfl rfl rfl⟩
  pc s _ _ h := ⟨h.1, by rw [← h.2]; exact hf s _ rfl rfl rfl rfl⟩
  ps s _ h := ⟨h.1, by rw [← h.2]; exact hf s _ rfl rfl rfl rfl⟩
  fr s _ h := ⟨h.1, by rw [← h.2]; exact hf s _ rfl rfl rfl rfl⟩
  mem s _ _ _ h := ⟨h.1, by rw [← h.2]; exact hf s _ rfl rfl rfl rfl⟩
  fetch s _ h := ⟨h.1, by rw [← h.2]; exact hf s _ rfl rfl rfl rfl⟩
  idle s _ h := ⟨h.1, by rw [← h.2]; exact hf s _ rfl rfl rfl rfl⟩
  free s _ h := ⟨h.1, by rw [← h.2]; exact hf s _ rfl rfl rfl rfl⟩
  ceLatch s h := ⟨h.1, by rw [← h.2]; exact hf s _ rfl rfl rfl rfl⟩
  ueDone s h := ⟨h.1, by rw [← h.2]; exact hf s _ rfl rfl rfl rfl⟩
  scramble s a n _ h := ⟨h.1, by
    rw [← h.2]
    exact hf s _ (s.scramble_tr a n) (s.scramble_inp a n) (s.scramble_out a n) (s.scramble_errorFlag a n)⟩

/-- As `Keeps`, in a quiet node, for a part of it that the system instructions leave alone too. -/
theorem keeps_quietWith {i : Instr} (c : α)
    (herror : i = .eron ∨ i = .erof → ∀ (s : State) b, f { s with errorFlag := b } = f s)
    (hrset : i = .rset → ∀ s : State, f s.rset = f s)
    (hldpr : (∃ src des, i = .ldpr src des) → ∀ s v, f { s with tr := v } = f s)
    (hload : (∃ src des, i = .lptr src des ∨ i = .lcnt src des ∨ i = .bptr src des ∨ i = .bcnt src des) →
      ∀ s t, SameButChannels s t → f t = f s) : Keeps (fun _ => True) (QuietWith f c) i := by
  have channels : (∃ src des, i = .lptr src des ∨ i = .lcnt src des ∨ i = .bptr src des ∨ i = .bcnt src des) →
      ∀ {t u : State}, QuietWith f c t → SameButChannels t u → QuietWith f c u := by
    intro hi t u h hu
    refine ⟨?_, (hload hi t u hu).trans h.2⟩
    rw [hu.1]; exact h.1
  exact {
    stable := stable_quietWith hf c
    error := fun hi s b h => ⟨h.1, (herror hi s b).trans h.2⟩
    rset := fun hi s h => ⟨h.1, (hrset hi s).trans h.2⟩
    ldpr := fun src des hi s n v t h ht => by
      obtain ⟨e, -⟩ := setProcReg_frame ht
      refine ⟨by rw [e]; exact h.1, ((hf { s with tr := t.tr } t ?_ ?_ ?_ ?_).trans (hldpr ⟨src, des, hi⟩ s t.tr)).trans h.2⟩
      all_goals rw [e]
    lptr := fun src des hi a p d s h => (lptrAct_channels a p d s).mono fun _ => channels ⟨src, des, .inl hi⟩ h
    lcnt := fun src des hi n p d s h => (lcntAct_channels n p d s).mono fun _ => channels ⟨src, des, .inr (.inl hi)⟩ h
    bptr := fun src des hi a m d s h =>
      (bptrAct_channels a m d s).mono fun _ => channels ⟨src, des, .inr (.inr (.inl hi))⟩ h
    bcnt := fun src des hi n m d s h =>
      (bcntAct_channels n m d s).mono fun _ => channels ⟨src, des, .inr (.inr (.inr hi))⟩ h }

end

/-- Settles O9. -/
theorem whoChangesWhat : Obligations.WhoChangesWhat := by
  intro i s t h
  refine ⟨fun hi => ?_, fun hb => ⟨fun hi => ?_, fun hi hr => ?_, fun hon hoff => ?_, fun p => ?_⟩⟩
  · obtain ⟨hcr, hpi, hoe, hie⟩ := ((keeps_enables hi s).execAll ⟨rfl, rfl, rfl, rfl⟩).of_next h
    exact ⟨hcr, hpi, hoe, hie⟩
  · have hK : Keeps (fun _ => True) (QuietWith State.tr s.tr) i :=
      keeps_quietWith (fun _ _ e _ _ _ => e) _ (fun _ _ _ => rfl) (fun _ _ => rfl)
        (fun ⟨src, des, e⟩ => absurd e (hi src des)) (fun _ s t e => by rw [e.1])
    exact ((hK.execAll ⟨hb, rfl⟩).of_next h).2
  · have hK : Keeps (fun _ => True) (QuietWith (fun u => (u.inp, u.out)) (s.inp, s.out)) i :=
      keeps_quietWith (fun _ _ _ e₁ e₂ _ => Prod.ext e₁ e₂) _ (fun _ _ _ => rfl) (fun e => absurd e hr) (fun _ _ _ => rfl)
        (fun ⟨src, des, e⟩ => by obtain ⟨h₁, h₂, h₃, h₄⟩ := hi src des; simp [h₁, h₂, h₃, h₄] at e)
    exact Prod.ext_iff.1 ((hK.execAll ⟨hb, rfl⟩).of_next h).2
  · have hK : Keeps (fun _ => True) (QuietWith State.errorFlag s.errorFlag) i :=
      keeps_quietWith (fun _ _ _ _ _ e => e) _ (fun e => by simp [hon, hoff] at e) (fun _ _ => rfl) (fun _ _ _ => rfl)
        (fun _ s t e => by rw [e.1])
    exact ((hK.execAll ⟨hb, rfl⟩).of_next h).2
  · have hK : Keeps (fun _ => True) (QuietWith (fun u => (u.outPort p).link) (s.outPort p).link) i :=
      keeps_quietWith (fun u v _ _ e _ => by simp only [State.outPort, e]) _ (fun _ _ _ => rfl) (fun _ u => link_rset u p)
        (fun _ _ _ => rfl) (fun _ u v e => e.2 p)
    exact ((hK.execAll ⟨hb, rfl⟩).of_next h).2

/-! ## What another agent writes -/

/-- What a store of an input channel changes, where it is enabled. -/
theorem storeStep_next {i : Fin 11} {s t : State} (h : storeStep i s = .next t) :
    t = s ∨ t = (s.poke (s.inPort i).address.toNat 2 (s.inPort i).latch.toNat).setIn i (s.inPort i).stored := by
  simp only [storeStep] at h
  split at h
  · split at h <;> cases h
    exact .inr rfl
  · cases h; exact .inl rfl

theorem sendStep_next {i : Fin 11} {s t : State} (h : sendStep i s = .next t) : t = { s with out := t.out } := by
  simp only [sendStep] at h
  split at h
  · split at h <;> cases h
    rfl
  · cases h; rfl

theorem broadcastStep_next {s t : State} (h : broadcastStep s = .next t) : t = { s with out := t.out } := by
  simp only [broadcastStep] at h
  split at h
  · cases h; rfl
  · split at h
    · split at h <;> cases h
      rfl
    · cases h; rfl

theorem hostWriteStep_next {k : Nat} {x : Half} {s t : State} (h : hostWriteStep k x s = .next t) :
    t = s ∨ t = s.poke (2 * k) 2 x.toNat := by
  simp only [hostWriteStep] at h
  split at h
  · cases h; exact .inl rfl
  · split at h <;> cases h
    exact .inr rfl

theorem hostReadStep_next {k : Nat} {s t : State} (h : hostReadStep k s = .next t) :
    t = { s with hostReads := t.hostReads } := by
  simp only [hostReadStep] at h
  split at h
  · cases h; rfl
  · split at h <;> cases h
    rfl

/-- Which agents write TR, memory, the host's reads and the latch of interrupt 15. -/
theorem agentStep_writes {e : Event} {s t : State} (h : agentStep e s = .next t) :
    (e ≠ .tick → t.tr = s.tr) ∧ ((∀ p, e ≠ .store p) → (∀ k x, e ≠ .hostWrite k x) → t.mem = s.mem) ∧
      ((∀ k, e ≠ .hostRead k) → t.hostReads = s.hostReads) ∧
      ((∀ a n, e ≠ .uncorrectable a n) → t.ueLatch = s.ueLatch) := by
  cases e with
  | cpu => cases h; exact ⟨fun _ => rfl, fun _ _ => rfl, fun _ => rfl, fun _ => rfl⟩
  | tick =>
    cases h
    refine ⟨fun hne => absurd rfl hne, fun _ _ => ?_, fun _ => ?_, fun _ => ?_⟩ <;> unfold State.tick <;> split <;> rfl
  | arrive p x bad =>
    cases h
    refine ⟨fun _ => ?_, fun _ _ => ?_, fun _ => ?_, fun _ => ?_⟩ <;> unfold State.arrives <;> split <;> rfl
  | store p =>
    rcases storeStep_next h with rfl | rfl <;>
      exact ⟨fun _ => rfl, fun hne _ => absurd rfl (hne p), fun _ => rfl, fun _ => rfl⟩
  | send p => rw [sendStep_next h]; exact ⟨fun _ => rfl, fun _ _ => rfl, fun _ => rfl, fun _ => rfl⟩
  | broadcast => rw [broadcastStep_next h]; exact ⟨fun _ => rfl, fun _ _ => rfl, fun _ => rfl, fun _ => rfl⟩
  | deliver p => cases h; exact ⟨fun _ => rfl, fun _ _ => rfl, fun _ => rfl, fun _ => rfl⟩
  | correctedEcc => cases h; exact ⟨fun _ => rfl, fun _ _ => rfl, fun _ => rfl, fun _ => rfl⟩
  | uncorrectable a n => cases h; exact ⟨fun _ => rfl, fun _ _ => rfl, fun _ => rfl, fun hne => absurd rfl (hne a n)⟩
  | hostWrite k x =>
    rcases hostWriteStep_next h with rfl | rfl <;>
      exact ⟨fun _ => rfl, fun _ hne => absurd rfl (hne k x), fun _ => rfl, fun _ => rfl⟩
  | hostRead k =>
    rw [hostReadStep_next h]
    exact ⟨fun _ => rfl, fun _ _ => rfl, fun hne => absurd rfl (hne k), fun _ => rfl⟩

/-! ## The registers an instruction writes -/

/-- No uncorrectable error is noted or named by the schedule, and register `n` holds `c`. -/
structure Unstruck (n : Fin 16) (c : Word) (t : State) : Prop where
  latch : t.ueLatch = none
  bus : ∀ es ∈ t.bus, ∀ e ∈ es, ∀ a k, e ≠ .uncorrectable a k
  reg : t.reg n = c

theorem runAgents_ueLatch : ∀ {es : List Event} {s t : State}, runAgents es s = .next t →
    (∀ e ∈ es, ∀ a k, e ≠ .uncorrectable a k) → t.ueLatch = s.ueLatch
  | [], _, _, h, _ => by cases h; rfl
  | e :: es, s, t, h, hes => by
    unfold runAgents at h
    cases he : agentStep e s with
    | next u =>
      rw [he] at h
      exact (runAgents_ueLatch h fun e' h' => hes e' (List.mem_cons_of_mem _ h')).trans
        ((agentStep_writes he).2.2.2 (hes e List.mem_cons_self))
    | fault f => rw [he] at h; cases h
    | refused r => rw [he] at h; cases h

theorem Unstruck.turn {n : Fin 16} {c : Word} {s t : State} (e : letAgents s = .next t) (h : Unstruck n c s) :
    Unstruck n c t := by
  have hreg : t.reg n = c := by rw [State.reg, (letAgents_frame e).regs]; exact h.reg
  unfold letAgents at e
  split at e
  · cases e; exact h
  · rename_i es rest hbus
    have hall := h.bus
    rw [hbus] at hall
    refine ⟨(runAgents_ueLatch e (hall es List.mem_cons_self)).trans h.latch, ?_, hreg⟩
    rw [(runAgents_frame e).2]
    exact fun es' h' => hall es' (List.mem_cons_of_mem _ h')

theorem Unstruck.congr {n : Fin 16} {c : Word} {s t : State} (h : Unstruck n c s) (hl : t.ueLatch = s.ueLatch)
    (hb : t.bus = s.bus) (hr : t.regs = s.regs) : Unstruck n c t :=
  ⟨hl.trans h.latch, by rw [hb]; exact h.bus, by rw [State.reg, hr]; exact h.reg⟩

theorem stable_unstruck (n : Fin 16) (c : Word) : Stable (fun m => m ≠ n) (Unstruck n c) where
  turn _ _ e h := h.turn e
  reg t m v hm h := ⟨h.latch, h.bus, (State.reg_setReg_other v hm).trans h.reg⟩
  sp _ _ _ h := h.congr rfl rfl rfl
  pc _ _ _ h := h.congr rfl rfl rfl
  ps _ _ h := h.congr rfl rfl rfl
  fr _ _ h := h.congr rfl rfl rfl
  mem _ _ _ _ h := h.congr rfl rfl rfl
  fetch _ _ h := h.congr rfl rfl rfl
  idle _ _ h := h.congr rfl rfl rfl
  free _ _ h := h.congr rfl rfl rfl
  ceLatch _ h := h.congr rfl rfl rfl
  ueDone _ h := h.congr rfl rfl rfl
  scramble t a k he h := by rw [h.latch] at he; cases he

theorem Unstruck.channels {n : Fin 16} {c : Word} {t u : State} (h : Unstruck n c t) (hu : SameButChannels t u) :
    Unstruck n c u := by
  rw [hu.1]; exact h.congr rfl rfl rfl

theorem keeps_unstruck (i : Instr) (n : Fin 16) (c : Word) : Keeps (fun m => m ≠ n) (Unstruck n c) i where
  stable := stable_unstruck n c
  error _ _ _ h := h.congr rfl rfl rfl
  rset _ _ h := ⟨rfl, h.bus, h.reg⟩
  ldpr _ _ _ _ _ _ _ h ht := by rw [(setProcReg_frame ht).1]; exact h.congr rfl rfl rfl
  lptr _ _ _ a p d t h := (lptrAct_channels a p d t).mono fun _ => h.channels
  lcnt _ _ _ m p d t h := (lcntAct_channels m p d t).mono fun _ => h.channels
  bptr _ _ _ a m d t h := (bptrAct_channels a m d t).mono fun _ => h.channels
  bcnt _ _ _ k m d t h := (bcntAct_channels k m d t).mono fun _ => h.channels

/-- An instruction that may not write `n` names only other registers. -/
theorem allows_of_mayWrite {i : Instr} {n : Fin 16} (h : mayWrite i n = false) :
    Allows (fun m => m ≠ n) i.parts.refs := by
  rintro p hp m hm rfl
  unfold mayWrite at h
  rw [List.any_eq_false] at h
  apply h p hp
  rw [Bool.or_eq_true]
  exact hm

/-- Settles O10. -/
theorem registerFrame : Obligations.RegisterFrame := by
  intro i s t n h hu hb hw hrep
  have hc : CountsIn (fun m => m ≠ n) s := fun hr => hrep.resolve_left hr
  exact (((keeps_unstruck i n (s.reg n)).exec (allows_of_mayWrite hw) hc ⟨hu, hb, rfl⟩).of_next h).reg

/-! ## What every step keeps -/

/-- The launch parameters and bits 31:24 of CR are as they were, and no free value drawn is drawn again. -/
structure Onward (s t : State) : Prop where
  cfg : t.cfg = s.cfg
  cr : t.cr.extractLsb' 24 8 = s.cr.extractLsb' 24 8
  free : s.free ≤ t.free

theorem Onward.congr {s t u : State} (h : Onward s t) (hcfg : u.cfg = t.cfg) (hcr : u.cr = t.cr)
    (hfree : u.free = t.free) : Onward s u :=
  ⟨hcfg.trans h.cfg, (congrArg _ hcr).trans h.cr, h.free.trans hfree.ge⟩

theorem Onward.control {s t u : State} (h : Onward s t) (hc : SameControl t u) : Onward s u :=
  h.congr hc.cfg hc.cr hc.free

theorem stable_onward (s : State) : Stable (fun _ => True) (Onward s) where
  turn _ _ e h := h.control (letAgents_frame e).control
  reg _ _ _ _ h := h.congr rfl rfl rfl
  sp _ _ _ h := h.congr rfl rfl rfl
  pc _ _ _ h := h.congr rfl rfl rfl
  ps _ _ h := h.congr rfl rfl rfl
  fr _ _ h := h.congr rfl rfl rfl
  mem _ _ _ _ h := h.congr rfl rfl rfl
  fetch _ _ h := h.congr rfl rfl rfl
  idle _ _ h := h.congr rfl rfl rfl
  free _ k h := ⟨h.cfg, h.cr, h.free.trans (Nat.le_add_right _ k)⟩
  ceLatch _ h := h.congr rfl rfl rfl
  ueDone _ h := h.congr rfl rfl rfl
  scramble t a n _ h := ⟨(t.scramble_cfg a n).trans h.cfg, (congrArg _ (t.scramble_cr a n)).trans h.cr, by
    have hfree : (t.scramble a n).free = t.free + 18 + n := by simp only [State.scramble, State.noteWrite_free]
    have := h.free
    omega⟩

theorem Onward.channels {s t u : State} (h : Onward s t) (hu : SameButChannels t u) : Onward s u := by
  rw [hu.1]; exact h.congr rfl rfl rfl

theorem keeps_onward (i : Instr) (s : State) : Keeps (fun _ => True) (Onward s) i where
  stable := stable_onward s
  error _ _ _ h := h.congr rfl rfl rfl
  rset _ _ h := h.congr rfl rfl rfl
  ldpr _ _ _ _ _ _ _ h ht := by
    obtain ⟨e, hcr⟩ := setProcReg_frame ht
    exact ⟨by rw [e]; exact h.cfg, hcr.trans h.cr, by rw [e]; exact h.free⟩
  lptr _ _ _ a p d t h := (lptrAct_channels a p d t).mono fun _ => h.channels
  lcnt _ _ _ n p d t h := (lcntAct_channels n p d t).mono fun _ => h.channels
  bptr _ _ _ a m d t h := (bptrAct_channels a m d t).mono fun _ => h.channels
  bcnt _ _ _ n m d t h := (bcntAct_channels n m d t).mono fun _ => h.channels

theorem step_onward {s t : State} (h : step s = .next t) : Onward s t :=
  (step_keeps (stable_onward s) (fun i _ hi => (keeps_onward i s).execAll hi)
    (fun _ _ _ he hs => hs.control (agentStep_frame he).1.control) (fun _ _ hs => hs.congr rfl rfl rfl)
    ⟨rfl, rfl, le_refl _⟩).of_next h

/-- The host's accesses leave a node alone that no System Control Board holds (R93). -/
theorem agentStep_host {e : Event} {s t : State} (h : agentStep e s = .next t) (k : Nat) (x : Half)
    (he : e = .hostWrite k x ∨ e = .hostRead k) (hboard : s.cfg.ioBoard = false) : t = s := by
  rcases he with rfl | rfl
  · simp only [agentStep, hostWriteStep, hboard, Bool.not_false, if_true] at h
    cases h; rfl
  · simp only [agentStep, hostReadStep, hboard, Bool.not_false, if_true] at h
    cases h; rfl

/-- The tick takes one from TR and stops at zero. -/
theorem tick_eq (s : State) : s.tick = { s with tr := s.tick.tr } ∧ s.tick.tr.toNat = s.tr.toNat - 1 := by
  unfold State.tick
  split
  · rename_i h
    have h0 : s.tr = 0 := by simpa using h
    exact ⟨rfl, by rw [h0]; rfl⟩
  · rename_i h
    have h0 : s.tr ≠ 0 := by simpa using h
    refine ⟨rfl, ?_⟩
    show (s.tr - 1).toNat = _
    bv_omega

/-- A halfword of memory is its two bytes, the low one first. -/
theorem ofNat_readN_two (m : Memory) (a : Nat) : BitVec.ofNat 16 (m.readN a 2) = m.read (a + 1) ++ m.read a := by
  have h0 := (m.read a).isLt
  have h1 := (m.read (a + 1)).isLt
  apply BitVec.eq_of_toNat_eq
  rw [BitVec.toNat_append, BitVec.toNat_ofNat, Nat.shiftLeft_eq, Nat.mul_comm, ← Nat.two_pow_add_eq_or_of_lt h0]
  show ((m.read a).toNat + 256 * ((m.read (a + 1)).toNat + 256 * 0)) % 2 ^ 16 = _
  omega

/-- A byte just written is not fetched as memory has it (R100 (a)). -/
theorem fetchFresh_poke {s : State} {a n v x : Nat} (h : a ≤ x) (h' : x < a + n) :
    (s.poke a n v).fetchFresh x = false := by
  have hmem : x ∈ (List.range n).map (a + ·) ++ s.fetch.recent :=
    List.mem_append_left _ (List.mem_map.2 ⟨x - a, List.mem_range.2 (by omega), by omega⟩)
  show (!(((List.range n).map (a + ·) ++ s.fetch.recent).contains x || s.fetch.stale.contains x)) = false
  rw [List.contains_iff_mem.2 hmem]
  rfl

/-- Settles O11. -/
theorem stepFrame : Obligations.StepFrame := by
  refine ⟨fun s t h => ?_, fun e s t h => ?_, fun s => ⟨_, rfl, tick_eq s⟩, fun _ => rfl, fun s a n => ⟨_, rfl, rfl, ?_⟩,
    fun s k hb hk => ?_, fun s k h hb hk hw => ?_⟩
  · obtain ⟨hcfg, hcr, hfree⟩ := step_onward h
    exact ⟨hcfg, hcr, hfree⟩
  · obtain ⟨⟨hregs, hsp, hc⟩, hbus⟩ := agentStep_frame h
    obtain ⟨htr, hmem, hreads, -⟩ := agentStep_writes h
    exact ⟨hregs, hc.pc, hsp, hc.ps, hc.fr, hc.cr, hc.pi, hc.oe, hc.ie, hc.idle, hc.pastEnd, hc.cfg, hc.free, hbus, htr,
      hmem, hreads, agentStep_host h⟩
  · simp [State.noteUncorrectable, Option.isSome_iff_ne_none, or_assoc]
  · simp [agentStep, hostReadStep, hb, dmaRead, hk, ofNat_readN_two]
  · have hstep : agentStep (.hostWrite k h) s = .next (s.poke (2 * k) 2 h.toNat) := by
      simp [agentStep, hostWriteStep, hb, hk]
    refine ⟨_, hstep, rfl, ?_, fun x hx => Memory.read_writeN_other _ _ _ x hw hx, fetchFresh_poke le_rfl (by omega),
      fetchFresh_poke (by omega) (by omega)⟩
    exact (Memory.readN_writeN _ _ _ hw).trans (Nat.mod_eq_of_lt h.isLt)

end Sys2Proof.Machine

/-!
The end of an instruction (R150 steps 6 and 7, R498): where it goes on, and what is taken there before anything else; with
it the instructions that only change a flag or the mode of the node (R410 to R424).
-/
namespace Sys2Proof.Machine

open Sys2Proof

/-! ## Where an instruction goes on -/

section
variable {d : Done} {w : Word} {s : State}

theorem advance_onward (hj : d.jumped = false) (he : d.entered = false) : s.advance d w = s.onward w d.next := by
  simp only [State.advance, hj, he]
  rfl

theorem advance_jumpTo (hj : d.jumped = true) (he : d.entered = false) : s.advance d w = s.jumpTo w d.next := by
  simp only [State.advance, hj, he]
  rfl

/-- An instruction that no repeat post-step follows (R404). -/
theorem finish_final {rep : Option (Fin 16)} (hb : s.bus = []) (hp : d.post = false) :
    finish rep w (.ok d s) = boundary d w (s.advance d w) := by
  have hpost : (s.advance d w).postStep rep d w = s.advance d w := by
    cases rep with
    | none => rfl
    | some r => simp only [State.postStep, hp, Bool.false_eq_true, if_false]
  show select d w ((s.advance d w).postStep rep d w) = _
  rw [hpost]
  exact select_quiet (by rw [State.advance_bus]; exact hb)

theorem State.Settled.congr {t : State} (h : s.Settled) (hbus : t.bus = s.bus) (hps : t.ps = s.ps)
    (hue : t.ueLatch = s.ueLatch) (htr : t.tr = s.tr) (hce : t.ceLatch = s.ceLatch) (hin : t.inp = s.inp)
    (hout : t.out = s.out) (hoe : t.oe = s.oe) (hie : t.ie = s.ie) (hcfg : t.cfg = s.cfg) : t.Settled :=
  ⟨hbus.trans h.1, by rw [hps]; exact h.2.1, hue.trans h.2.2.1,
    (asyncNumber_congr hps htr hce hin hout hoe hie hcfg).trans h.2.2.2⟩

theorem State.Settled.jumpTo (h : s.Settled) (pc0 target : Word) : (s.jumpTo pc0 target).Settled :=
  h.congr rfl rfl rfl rfl rfl rfl rfl rfl rfl rfl

/-! ## What is taken there -/

theorem completion_none (hs : d.sig = .none) (hsp : d.wroteSp = true → 2048 ≤ s.sp.toNat) : completion d s = none :=
  completion_quiet hsp (by rw [hs]; exact quietSignal_none _)

/-- Stack Overflow comes before all else (R493, R498 item 2). -/
theorem boundary_stackOverflow (hw : d.wroteSp = true) (hsp : s.sp.toNat < 2048) : boundary d w s = takes 12 w s := by
  have hc : completion d s = some (12, none) := by simp [completion, hw, hsp]
  rw [boundary, hc]
  rfl

/-- Trace comes before an uncorrectable error and every asynchronous condition (R498 item 3). -/
theorem boundary_trace (hc : completion d s = none) (hT : s.ps.eT = true) (he : d.entered = false) :
    boundary d w s = takes 1 s.pc s := by
  rw [boundary, hc, hT, he]
  rfl

theorem boundary_async {n : Nat} (hc : completion d s = none) (hT : s.ps.eT = false) (hu : s.ueLatch = none)
    (ha : asyncNumber s = some n) (hn : n ≠ 14) : boundary d w s = takes n s.pc s := by
  simp only [boundary, hc, hT, Bool.false_and, Bool.false_eq_true, if_false, takeAsync, hu, ha, if_neg hn]
  rfl

/-- An instruction whose end leaves nothing waiting, no repeat following it. -/
theorem finish_settled {rep : Option (Fin 16)} (hpost : rep = none ∨ d.post = false) (hs : (s.advance d w).Settled)
    (hsig : d.sig = .none) (hsp : d.wroteSp = true → 2048 ≤ (s.advance d w).sp.toNat) :
    finish rep w (.ok d s) = .next (s.advance d w) := by
  have hb : s.bus = [] := (State.advance_bus s d w).symm.trans hs.1
  have hfin : finish rep w (.ok d s) = boundary d w (s.advance d w) := by
    rcases hpost with rfl | hp
    · exact finish_ok hb
    · exact finish_final hb hp
  rw [hfin]
  exact boundary_settled hs (completion_none hsig hsp)

end

/-! ## Instructions without references -/

section
variable {i : Instr} {act : State → State} {s : State} (hexec : exec i s = runPlain i (simpleBody act) s)
include hexec

/-- An instruction that only changes the state, up to the selection at its end. -/
theorem exec_simple_boundary (hr : s.ps.rep = 0) (hb : (act s).bus = []) :
    exec i s = boundary (Done.plain (pcNext i s) false) s.pc ((act s).onward s.pc (pcNext i s)) := by
  rw [hexec, runPlain_once hr]
  exact (finish_ok hb).trans (by rw [advance_onward rfl rfl]; rfl)

theorem exec_simple_once (hr : s.ps.rep = 0) (hs : (act s).Settled) :
    exec i s = .next ((act s).onward s.pc (pcNext i s)) := by
  rw [exec_simple hexec (.inl hr) hs, State.goesOn, if_pos hr]

end

theorem exec_eron (s : State) : exec .eron s = runPlain .eron (simpleBody fun s => { s with errorFlag := true }) s := rfl

theorem exec_erof (s : State) : exec .erof s = runPlain .erof (simpleBody fun s => { s with errorFlag := false }) s := rfl

theorem exec_ei (s : State) :
    exec .ei s = runPlain .ei (simpleBody fun s => s.withPs { s.ps with eIE := true }) s := rfl

theorem exec_di (s : State) :
    exec .di s = runPlain .di (simpleBody fun s => s.withPs { s.ps with eIE := false }) s := rfl

/-- With IE clear no asynchronous condition is enabled (R497). -/
theorem asyncNumber_of_disabled {s : State} (h : s.ps.eIE = false) : asyncNumber s = none := by
  unfold asyncNumber
  rw [Option.map_eq_none_iff, List.find?_eq_none]
  intro c hc
  simp only [asyncConditions, List.mem_append, List.mem_cons, List.not_mem_nil, or_false, List.mem_map, outputReady,
    inputReady, inputError, h, Bool.and_false] at hc
  rcases hc with (((rfl | rfl) | ⟨i, -, rfl⟩) | ⟨i, -, rfl⟩) | ⟨i, -, rfl⟩ <;> exact Bool.false_ne_true

/-- The one-byte opcodes of column B are not renamed. -/
theorem encode_zero {i : Instr} {b : Byte} (h : i.parts = ⟨b, []⟩) (hcol : isDivColumn b = false) (cfg : Params) :
    encode cfg i = [b] := by
  have hmem : memOpcode cfg b = b := by
    unfold memOpcode
    cases cfg.divRows with
    | opcodeMap => rfl
    | definitions => simp only [renameRow, hcol, Bool.false_eq_true, if_false]
  rw [encode, h, hmem]
  rfl

/-- An instruction of one byte that changes PS only (R410 to R415). -/
theorem flagInstruction {i : Instr} {b : Byte} {f : PsReg → PsReg} (h : i.parts = ⟨b, []⟩) (hcol : isDivColumn b = false)
    (hexec : ∀ s, exec i s = runPlain i (simpleBody fun s => s.withPs (f s.ps)) s) :
    (∀ cfg, encode cfg i = [b]) ∧ ∀ s : State, s.ps.rep = 0 → (s.withPs (f s.ps)).Settled →
      exec i s = .next ((s.withPs (f s.ps)).onward s.pc (s.pc + 1)) := by
  refine ⟨encode_zero h hcol, fun s hr hs => ?_⟩
  have hnext : pcNext i s = s.pc + 1 := by rw [pcNext, Instr.length, h]; rfl
  rw [exec_simple_once (hexec s) hr hs, hnext]

/-- Settles O46. -/
theorem flagInstructions : Obligations.FlagInstructions := by
  refine ⟨?_, fun s n hr hb hT hu ha hn => ?_, fun s hr hb hT hu => ?_⟩
  · simp only [List.forall_mem_cons, List.not_mem_nil, false_imp_iff, implies_true, and_true]
    exact ⟨flagInstruction (f := id) rfl rfl fun _ => rfl,
      flagInstruction (f := fun q => { q with fC := false }) rfl rfl fun _ => rfl,
      flagInstruction (f := fun q => { q with fC := true }) rfl rfl fun _ => rfl,
      flagInstruction (f := fun q => { q with fC := !q.fC }) rfl rfl fun _ => rfl,
      flagInstruction (f := fun q => { q with eIE := true }) rfl rfl fun _ => rfl,
      flagInstruction (f := fun q => { q with eIE := false }) rfl rfl fun _ => rfl⟩
  · rw [exec_simple_boundary (exec_ei s) hr hb]
    exact boundary_async (completion_none rfl (fun h => by cases h)) hT hu ha hn
  · rw [exec_simple_boundary (exec_di s) hr hb]
    exact boundary_none (completion_none rfl (fun h => by cases h)) hT hu (asyncNumber_of_disabled rfl)

/-! ## ERON, EROF, WAIT and RSET -/

theorem exec_wait (s : State) :
    exec .wait s = runPlain .wait (fun next s => .ok (Done.final next) { s with idle := true }) s := rfl

theorem exec_rset (s : State) : exec .rset s = runPlain .rset (fun next s => .ok (Done.final next) s.rset) s := rfl

/-- An instruction whose end no repeat post-step follows: WAIT and RSET, with or without a repeat (R404). -/
theorem finish_final_settled {rep : Option (Fin 16)} {next w : Word} {t : State} (hs : t.Settled) :
    finish rep w (.ok (Done.final next) t) = .next (t.onward w next) :=
  (finish_settled (.inr rfl) (by rw [advance_onward rfl rfl]; exact hs.onward _ _) rfl (fun h => by cases h)).trans
    (by rw [advance_onward rfl rfl]; rfl)

/-- Settles O47. -/
theorem nodeInstructions : Obligations.NodeInstructions := by
  refine ⟨fun cfg => ⟨encode_zero rfl rfl cfg, encode_zero rfl rfl cfg⟩, fun s hr hs => ⟨?_, ?_, ?_⟩,
    fun s hr hb hT ha => ?_, fun s => ⟨rfl, State.inPort_rset s, State.outPort_rset s⟩⟩
  · exact exec_simple_once (exec_eron s) hr (hs.congr rfl rfl rfl rfl rfl rfl rfl rfl rfl rfl)
  · exact exec_simple_once (exec_erof s) hr (hs.congr rfl rfl rfl rfl rfl rfl rfl rfl rfl rfl)
  · rw [exec_wait, runPlain_once hr]
    exact finish_final_settled (t := { s with idle := true }) (hs.congr rfl rfl rfl rfl rfl rfl rfl rfl rfl rfl)
  · rw [exec_rset, runPlain_once hr]
    exact finish_final_settled (t := s.rset) ⟨hb, hT, rfl, ha⟩

end Sys2Proof.Machine

/-!
Transfers of control (R370 to R391, R418 to R420): branches, CALL, RET, RETP, the software interrupts and RETI, from what a
push and a pop leave of the processor whatever the agents do meanwhile.
-/
namespace Sys2Proof.Machine

open Sys2Proof

/-! ## Accesses leave the processor's registers alone -/

theorem reads_processor (s : State) : Reads (fun _ => False) False (SameProcessor s) where
  turn _ _ e h := h.trans (letAgents_frame e)
  reg _ _ _ hA _ := hA.elim
  sp _ _ hB _ := hB.elim

theorem loadN_processor {a : Word} {n v : Nat} {s t : State} (h : loadN a n s = .ok v t) : SameProcessor s t :=
  ((reads_processor s).loadN a n (.refl s)).of_ok h

theorem agentsTurn_processor {s t : State} {u : Unit} (h : agentsTurn s = .ok u t) : SameProcessor s t := by
  unfold agentsTurn at h
  split at h
  · rename_i e; cases h; exact letAgents_frame e
  · cases h
  · cases h

theorem SameProcessor.of_mem {s t : State} (h : SameProcessor s t) (m : Memory) (f : FetchBuffer) :
    SameProcessor s { t with mem := m, fetch := f } :=
  ⟨h.1, h.2, ⟨h.3.1, h.3.2, h.3.3, h.3.4, h.3.5, h.3.6, h.3.7, h.3.8, h.3.9, h.3.10, h.3.11, h.3.12, h.3.13⟩⟩

theorem writeAtoms_processor : ∀ {l : List (Nat × Nat)} {v : Nat} {s t : State} {u : Unit},
    writeAtoms l v s = .ok u t → SameProcessor s t
  | [], _, _, _, _, h => by cases h; exact .refl _
  | (a, k) :: rest, v, s, t, u, h => by
    obtain ⟨_, s₁, h₁, h₂⟩ := Flow.bind_eq_ok.1 h
    exact ((agentsTurn_processor h₁).of_mem (s₁.mem.writeN a k v) s₁.fetch).trans (writeAtoms_processor h₂)

theorem storeN_processor {a : Word} {n v : Nat} {s t : State} {u : Unit} (h : storeN a n v s = .ok u t) :
    SameProcessor s t := by
  unfold storeN at h
  split at h
  · exact ((SameProcessor.refl s).of_mem s.mem _).trans (writeAtoms_processor h)
  · cases h
  · cases h

/-- A push moves SP only, of the processor's registers. -/
theorem push4_processor {v : Word} {s t : State} {u : Unit} (h : push4 v s = .ok u t) :
    SameProcessor { s with sp := s.sp - 4 } t := storeN_processor (s := { s with sp := s.sp - 4 }) h

/-- A pop moves SP only, of the processor's registers. -/
theorem pop4_processor {v : Word} {s t : State} (h : pop4 s = .ok v t) : SameProcessor { s with sp := s.sp + 4 } t := by
  obtain ⟨_, _, hpop, he⟩ := Flow.bind_eq_ok.1 h
  obtain ⟨_, s₁, hload, he'⟩ := Flow.bind_eq_ok.1 hpop
  cases he'
  cases he
  have hs := loadN_processor hload
  have hc := hs.control
  exact ⟨hs.regs, congrArg (· + 4) hs.sp, ⟨hc.1, hc.2, hc.3, hc.4, hc.5, hc.6, hc.7, hc.8, hc.9, hc.10, hc.11, hc.12,
    hc.13⟩⟩

theorem clearRep_of_once {s : State} (h : s.ps.rep = 0) : s.clearRep = s := by
  show { s with ps := { s.ps with rep := 0 } } = s
  rw [← h]

/-! ## Branches -/

theorem exec_branch : ∀ p ∈ branchTable, ∀ (src : Ref) (s : State),
    exec (p.1 src) s = runBranch (p.1 src) (fun next _ s => branchBody p.2.1 p.2.2 src next s) s := by
  simp only [branchTable, List.forall_mem_cons, List.not_mem_nil, false_imp_iff, implies_true, and_true]
  and_intros <;> intros <;> rfl

section
variable {src : Ref} {s s₁ : State} {t : Word}

theorem evalTarget_control {sp0 w : Word} (h : evalTarget sp0 w src s = .ok t s₁) : SameControl s s₁ := by
  obtain ⟨_, _, he, h'⟩ := Flow.bind_eq_ok.1 h
  cases h'
  exact evalRef_control he

theorem evalTarget_sp {sp0 w : Word} (h : evalTarget sp0 w src s = .ok t s₁) : s₁.sp = s.sp := by
  obtain ⟨_, _, he, h'⟩ := Flow.bind_eq_ok.1 h
  cases h'
  exact evalRef_sp he (.inr (by decide))

theorem evalTarget_frame {sp0 w : Word} (hb : s.bus = []) (h : evalTarget sp0 w src s = .ok t s₁) :
    s₁ = { s with regs := s₁.regs, sp := s₁.sp } := by
  obtain ⟨_, _, he, h'⟩ := Flow.bind_eq_ok.1 h
  cases h'
  exact evalRef_frame hb he

/-- A branch up to its end: it is Invalid, or taken, or goes on (R370, R390, R391). -/
theorem branchBody_of_target (signed : Bool) (taken : PsReg → Bool) (next : Word)
    (h : evalTarget s.sp (s.pc + 2) src s = .ok t s₁) :
    branchBody signed taken src next s =
      if signed && s.ps.fU then .trap 9 s.pc (s₁.withPs { s.ps with fIN := true })
      else if taken s.ps then .ok (Done.jump t false) s₁ else .ok (Done.plain next false) s₁ := by
  have hc := evalTarget_control h
  refine (Flow.bind_of_ok _ h).trans ?_
  rw [← hc.ps, ← hc.pc]
  rfl

/-- The end of a branch that is not Invalid, up to the selection. -/
theorem finish_branch {next w : Word} (c : Bool) (hb : s₁.bus = []) :
    finish none w (if c then .ok (Done.jump t false) s₁ else .ok (Done.plain next false) s₁) =
      if c then boundary (Done.jump t false) w (s₁.jumpTo w t)
      else boundary (Done.plain next false) w (s₁.onward w next) := by
  cases c with
  | false => exact (finish_ok hb).trans (by rw [advance_onward rfl rfl]; rfl)
  | true => exact (finish_ok hb).trans (by rw [advance_jumpTo rfl rfl]; rfl)

theorem finish_branch_settled {next w : Word} (c : Bool) (hs : s₁.Settled) :
    finish none w (if c then .ok (Done.jump t false) s₁ else .ok (Done.plain next false) s₁) =
      .next (if c then s₁.jumpTo w t else s₁.onward w next) := by
  rw [finish_branch c hs.1]
  cases c with
  | false => exact boundary_settled (w := w) (hs.onward _ _) (completion_none (d := Done.plain next false) rfl (fun h => by cases h))
  | true => exact boundary_settled (w := w) (hs.jumpTo _ _) (completion_none (d := Done.jump t false) rfl (fun h => by cases h))

end

/-- The four signed branches (R390). -/
theorem signed_mem_branchTable : ∀ mk ∈ [Instr.bg, .bge, .bl, .ble], ∃ taken, (mk, true, taken) ∈ branchTable := by
  simp only [branchTable, List.forall_mem_cons, List.not_mem_nil, false_imp_iff, implies_true, and_true]
  exact ⟨⟨_, by repeat constructor⟩, ⟨_, by repeat constructor⟩, ⟨_, by repeat constructor⟩, ⟨_, by repeat constructor⟩⟩

/-- Settles O40. -/
theorem branches : Obligations.Branches := by
  refine ⟨fun p hp src s s₁ t hr he hU hs => ?_, fun mk hmk src s s₁ t hr he hU => ?_⟩
  · rw [exec_branch p hp, runBranch_once hr, branchBody_of_target _ _ _ he, if_neg (by rw [hU]; decide)]
    exact finish_branch_settled _ hs
  · obtain ⟨taken, hp⟩ := signed_mem_branchTable mk hmk
    rw [exec_branch _ hp]
    refine runBranch_trap hr ?_
    rw [branchBody_of_target _ _ _ he, if_pos (by rw [hU]; rfl)]

/-! ## CALL, RET and RETP -/

section
variable {s s₁ s₂ s₃ : State} {t : Word}

theorem callBody_eq_ok {src : Ref} {ret : Word} (he : evalTarget s.sp (s.pc + 2) src s = .ok t s₁)
    (hp : push4 ret s₁ = .ok () s₂) : callBody src ret s = .ok (Done.jump t true) s₂.clearRep :=
  (Flow.bind_of_ok _ he).trans (Flow.bind_of_ok _ hp)

theorem retBody_eq_ok (hp : pop4 s = .ok t s₁) : retBody s = .ok (Done.jump t true) s₁.clearRep :=
  Flow.bind_of_ok _ hp

theorem retpBody_eq_ok {src : Ref} {l : Loc} {k : Word} (he : evalRef .src 4 s.sp (s.pc + 2) src s = .ok l s₁)
    (hk : readLoc .w l s₁ = .ok k s₂) (hp : pop4 s₂ = .ok t s₃) :
    retpBody src s = .ok (Done.jump t true) { s₃ with sp := s₃.sp + k }.clearRep :=
  (Flow.bind_of_ok _ he).trans ((Flow.bind_of_ok _ hk).trans (Flow.bind_of_ok _ hp))

/-- A transfer that leaves nothing waiting and SP at or above 2048. -/
theorem finish_jump {w : Word} (hs : s.Settled) (hsp : 2048 ≤ s.sp.toNat) :
    finish none w (.ok (Done.jump t true) s) = .next (s.jumpTo w t) :=
  (finish_settled (.inl rfl) (by rw [advance_jumpTo rfl rfl]; exact hs.jumpTo _ _) rfl
    (fun _ => by rw [advance_jumpTo rfl rfl]; exact hsp)).trans (by rw [advance_jumpTo rfl rfl]; rfl)

end

theorem exec_call (src : Ref) (s : State) :
    exec (.call src) s = runBranch (.call src) (fun _ ret s => callBody src ret s) s := rfl

theorem exec_ret (s : State) : exec .ret s = runBranch .ret (fun _ _ s => retBody s) s := rfl

theorem exec_retp (src : Ref) (s : State) :
    exec (.retp src) s = runBranch (.retp src) (fun _ _ s => retpBody src s) s := rfl

/-- A pushed Word is on top of the stack, and every other byte is as it was. -/
theorem pushed_reads {s : State} (hw : s.mem.wf = true) (v : Word) :
    (s.pushed v).mem.readN (s.pushed v).sp.toNat 4 = v.toNat ∧
      ∀ x, x < (s.pushed v).sp.toNat ∨ (s.pushed v).sp.toNat + 4 ≤ x → (s.pushed v).mem.read x = s.mem.read x :=
  poke_reads .w (s := { s with sp := s.sp - 4 }) hw _ v

/-- Settles O42. -/
theorem calls : Obligations.Calls := by
  refine ⟨fun src s s₁ s₂ t hr he hp hs hsp => ?_, fun s s₁ t hr hp hs hsp => ?_,
    fun src s s₁ s₂ s₃ l k t hr he hk hp hs hsp => ?_, fun s hb => ⟨fun v h h' => ?_, fun h h' => ?_⟩⟩
  · have hproc := push4_processor hp
    have hps : s₂.ps = s.ps := hproc.control.ps.trans (evalTarget_control he).ps
    have hspval : s₂.sp = s.sp - 4 := hproc.sp.trans (congrArg (· - 4) (evalTarget_sp he))
    refine ⟨?_, hspval, fun hb hw => ?_⟩
    · rw [exec_call, runBranch_once hr, callBody_eq_ok he hp, clearRep_of_once (by rw [hps]; exact hr)]
      exact finish_jump hs hsp
    · have hframe := evalTarget_frame hb he
      have hb₁ : s₁.bus = [] := by rw [hframe]; exact hb
      have hmem : s₁.mem = s.mem := by rw [hframe]
      obtain ⟨-, rfl⟩ := (push4_eq_ok hb₁).1 hp
      rw [← hmem] at hw ⊢
      exact pushed_reads hw _
  · have hproc := pop4_processor hp
    refine ⟨?_, hproc.sp, hproc.regs, fun hb => ?_⟩
    · rw [exec_ret, runBranch_once hr, retBody_eq_ok hp, clearRep_of_once (by rw [hproc.control.ps]; exact hr)]
      exact finish_jump hs hsp
    · obtain ⟨-, hv, rfl⟩ := (pop4_eq_ok hb).1 hp
      exact ⟨hv, rfl⟩
  · have hps : s₃.ps = s.ps :=
      (pop4_processor hp).control.ps.trans ((readLoc_control hk).ps.trans (evalRef_control he).ps)
    refine ⟨?_, fun hb => ?_⟩
    · rw [exec_retp, runBranch_once hr, retpBody_eq_ok he hk hp,
        clearRep_of_once (s := { s₃ with sp := s₃.sp + k }) (by rw [hps]; exact hr)]
      exact finish_jump hs hsp
    · have hframe := evalRef_frame hb he
      have hb₁ : s₁.bus = [] := by rw [hframe]; exact hb
      obtain rfl := readLoc_state hb₁ hk
      obtain ⟨-, -, rfl⟩ := (pop4_eq_ok hb₁).1 hp
      rw [hframe]
  · exact ⟨_, (push4_eq_ok hb).2 ⟨checkAccess_present h h', rfl⟩, rfl⟩
  · exact (pop4_eq_ok hb).2 ⟨checkAccess_present h h', rfl, rfl⟩

/-! ## BKPT, TRAP and RETI -/

section
variable {s s₁ s₂ t : State} {a : Word}

theorem exec_bkpt (s : State) : exec .bkpt s = runPlain .bkpt (softwareInterrupt 2) s := rfl

theorem exec_trap (src : Ref) (s : State) :
    exec (.trap src) s = runPlain (.trap src)
      (fun next s => readBody .b (fun n s => softwareInterrupt n.toNat next s) src s) s := rfl

theorem exec_reti (s : State) :
    exec .reti s = runPlain .reti
      (fun _ s => (returnFromInterrupt s).bind fun t s => .ok { Done.jump t true with post := false } s) s := rfl

/-- An entry leaves no mark of a pc past the last address. -/
theorem enter_pastEnd {n : Nat} (h : enter n a s = .ok () t) : t.pastEnd = false := by
  unfold enter at h
  split at h
  · obtain ⟨_, _, _, h⟩ := Flow.bind_eq_ok.1 h
    obtain ⟨_, _, _, h⟩ := Flow.bind_eq_ok.1 h
    obtain ⟨_, _, _, h⟩ := Flow.bind_eq_ok.1 h
    obtain ⟨_, _, _, h⟩ := Flow.bind_eq_ok.1 h
    cases h
    rfl
  · cases h

/-- The end of TRAP and BKPT, whose entry has been made: neither Stack Overflow nor trace is examined (R498 item 3), and
no repeat post-step follows. -/
theorem finish_entry {rep : Option (Fin 16)} {w : Word} (hp : t.pastEnd = false) (hb : t.bus = []) (hu : t.ueLatch = none)
    (ha : asyncNumber t = none) : finish rep w (.ok (Done.entry t.pc) t) = .next t := by
  have hadv : t.advance (Done.entry t.pc) w = t := by
    show { t with pc := t.pc, pastEnd := false } = t
    rw [← hp]
  have hc : completion (Done.entry t.pc) t = none := completion_none rfl (fun h => by cases h)
  rw [finish_final hb rfl, hadv, boundary, hc]
  simp only [Done.entry, Bool.not_true, Bool.and_false, Bool.false_eq_true, if_false, takeAsync, hu, ha]

theorem softwareInterrupt_eq_ok {n : Nat} {next : Word} (h : enter n next (s.noteExecuted s.pc) = .ok () t) :
    softwareInterrupt n next s = .ok (Done.entry t.pc) t := Flow.bind_of_ok _ h

theorem readBody_eq {ty : OpType} {src : Ref} {l : Loc} {v : BitVec ty.bits} (act : BitVec ty.bits → State → Flow Done)
    (he : evalRef .src ty.len s.sp (s.pc + 2) src s = .ok l s₁) (hv : readLoc ty l s₁ = .ok v s₂) :
    readBody ty act src s = act v s₂ := (Flow.bind_of_ok _ he).trans (Flow.bind_of_ok _ hv)

/-- The registers of the processor after a return from an interrupt (R420, R503). -/
theorem returnFromInterrupt_processor (h : returnFromInterrupt s = .ok a t) :
    t.sp = s.sp + 8 ∧ t.regs = s.regs ∧ t.ueActive = false := by
  obtain ⟨_, s₁, h₁, h⟩ := Flow.bind_eq_ok.1 h
  obtain ⟨_, s₂, h₂, h⟩ := Flow.bind_eq_ok.1 h
  cases h
  have hp₁ := pop4_processor h₁
  have hp₂ := pop4_processor h₂
  refine ⟨(hp₂.sp.trans (congrArg (· + 4) hp₁.sp)).trans ?_, hp₂.regs.trans hp₁.regs, rfl⟩
  show s.sp + 4 + 4 = s.sp + 8
  rw [BitVec.add_assoc]
  rfl

/-- RETI up to the selection at its end, with or without a repeat (R404). -/
theorem exec_reti_boundary (hr : Runs .reti s) (h : returnFromInterrupt s = .ok a t) (hb : t.bus = []) :
    exec .reti s = boundary { Done.jump a true with post := false } s.pc (t.jumpTo s.pc a) := by
  rw [exec_reti, runPlain_runs hr]
  refine (congrArg (finish _ _) (Flow.bind_of_ok _ h)).trans ?_
  exact (finish_final hb rfl).trans (by rw [advance_jumpTo rfl rfl]; rfl)

theorem exec_reti_settled (hr : Runs .reti s) (h : returnFromInterrupt s = .ok a t) (hs : t.Settled)
    (hsp : 2048 ≤ t.sp.toNat) : exec .reti s = .next (t.jumpTo s.pc a) := by
  rw [exec_reti_boundary hr h hs.1]
  exact boundary_settled (hs.jumpTo _ _)
    (completion_none (d := { Done.jump a true with post := false }) rfl fun _ => hsp)

theorem exec_bkpt_entered (hr : Runs .bkpt s) (h : enter 2 (s.pc + 1) (s.noteExecuted s.pc) = .ok () t)
    (hb : t.bus = []) (hu : t.ueLatch = none) (ha : asyncNumber t = none) : exec .bkpt s = .next t := by
  rw [exec_bkpt, runPlain_runs hr]
  exact (congrArg (finish _ _) (softwareInterrupt_eq_ok h)).trans (finish_entry (enter_pastEnd h) hb hu ha)

theorem exec_trap_entered {src : Ref} {l : Loc} {n : Byte} (hr : Runs (.trap src) s)
    (he : evalRef .src 1 s.sp (s.pc + 2) src s = .ok l s₁) (hn : readLoc .b l s₁ = .ok n s₂)
    (h : enter n.toNat (pcNext (.trap src) s) (s₂.noteExecuted s.pc) = .ok () t) (hb : t.bus = [])
    (hu : t.ueLatch = none) (ha : asyncNumber t = none) : exec (.trap src) s = .next t := by
  have hpc : s₂.pc = s.pc := (readLoc_control hn).pc.trans (evalRef_control he).pc
  rw [← hpc] at h
  rw [exec_trap, runPlain_runs hr, readBody_eq (ty := .b) _ he hn]
  exact (congrArg (finish _ _) (softwareInterrupt_eq_ok h)).trans (finish_entry (enter_pastEnd h) hb hu ha)

end

/-- Settles O52. -/
theorem softwareEntryReturn : Obligations.SoftwareEntryReturn := by
  refine ⟨⟨fun s t hr => exec_bkpt_entered (.inl hr), fun src s s₁ s₂ t l n hr => exec_trap_entered (.inl hr)⟩,
    fun s s₁ a hr h hs hsp => ?_, fun s hb h h' => ?_⟩
  · obtain ⟨hsp', hregs, hue⟩ := returnFromInterrupt_processor h
    refine ⟨exec_reti_settled (.inl hr) h hs hsp, hsp', hregs, hue, fun hb => ?_⟩
    obtain ⟨-, -, hv, rfl⟩ := (returnFromInterrupt_eq_ok hb).1 h
    exact ⟨rfl, hv, rfl⟩
  · have hsp : (s.sp + 4).toNat = s.sp.toNat + 4 := by bv_omega
    exact ⟨_, _, (returnFromInterrupt_eq_ok hb).2 ⟨checkAccess_present (by omega) (by omega),
      checkAccess_present (by omega) (by omega), rfl, rfl⟩⟩

end Sys2Proof.Machine

/-!
MOVA and the repeat (R389, R400 to R406): the instructions that set one up, what a repeat that has ended skips, and what one
that goes on runs.
-/
namespace Sys2Proof.Machine

open Sys2Proof

/-! ## Storing a result leaves PS alone -/

theorem writeLoc_control {t : OpType} {l : Loc} {v : BitVec t.bits} {s s' : State} {u : Unit}
    (h : writeLoc t l v s = .ok u s') : SameControl s s' := by
  cases l with
  | lit k => cases h; exact .refl _
  | imm k => cases h; exact .refl _
  | reg n => cases h; cases t <;> exact ⟨rfl, rfl, rfl, rfl, rfl, rfl, rfl, rfl, rfl, rfl, rfl, rfl, rfl⟩
  | mem a => exact (storeN_processor h).control
  | push =>
    have hc := (storeN_processor (s := { s with sp := s.sp - BitVec.ofNat 32 t.len }) h).control
    exact ⟨hc.1, hc.2, hc.3, hc.4, hc.5, hc.6, hc.7, hc.8, hc.9, hc.10, hc.11, hc.12, hc.13⟩

theorem evalSecond_control {role : Role} {k₁ k₂ : RefKind} {sp0 : Word} {src des : Ref} {s t : State} {l : Loc}
    (h : evalSecond role k₁ k₂ sp0 src des s = .ok l t) : SameControl s t := evalRef_control (evalSecond_eq_ok.1 h).2

theorem withPs_of_eq {s : State} {p : PsReg} (h : s.ps = p) : s.withPs p = s := by subst h; rfl

/-! ## MOVA -/

theorem exec_mova (src des : Ref) (s : State) : exec (.mova src des) s = runPlain (.mova src des) (movaBody src des) s := rfl

section
variable {src des : Ref} {s s₁ s₂ s₃ : State} {l : Loc} {v : Word}

theorem movaBody_eq_ok {next : Word} (he : evalTarget s.sp (s.pc + 2) src s = .ok v s₁)
    (hl : evalSecond .write .addr (.value .w) s.sp src des s₁ = .ok l s₂) (hw : writeLoc .w l v s₂ = .ok () s₃) :
    movaBody src des next s = .ok { Done.plain next (popsStack des) with sig := .none } { s₃ with ps := s.ps } :=
  (Flow.bind_of_ok _ he).trans ((Flow.bind_of_ok _ hl).trans (settle_done (k := 0) hw))

theorem mova_framed {pc0 next : Word} (hb : s.bus = []) (he : evalTarget s.sp (s.pc + 2) src s = .ok v s₁)
    (hl : evalSecond .write .addr (.value .w) s.sp src des s₁ = .ok l s₂) (hw : writeLoc .w l v s₂ = .ok () s₃) :
    Framed .w src des l s (s₃.onward pc0 next) := by
  obtain ⟨_, s₁', he', ht⟩ := Flow.bind_eq_ok.1 he
  cases ht
  have hl' := (evalSecond_eq_ok.1 hl).2
  have e₁ := evalRef_frame hb he'
  have hb₁ : s₁.bus = [] := by rw [e₁]; exact hb
  have e₂ := evalRef_frame hb₁ hl'
  have hb₂ : s₂.bus = [] := by rw [e₂]; exact hb₁
  have e₃ := writeLoc_frame hb₂ hw
  obtain ⟨wsp, wreg, wmem⟩ := writeLoc_parts hb₂ hw
  have hmem : s₂.mem = s.mem := by rw [e₂, e₁]
  refine ⟨?_, fun _ hpush => ?_, fun n hs hd hst => ?_, fun hwf x hx => ?_⟩
  · rw [e₃, e₂, e₁]; exact ⟨rfl, rfl, rfl, rfl, rfl, rfl, rfl, rfl, rfl, rfl, rfl, rfl, rfl, rfl, rfl, rfl, rfl, rfl⟩
  · exact (wsp hpush).trans ((evalRef_sp hl' (.inr (by decide))).trans (evalRef_sp he' (.inr (by decide))))
  · refine (wreg n fun m e => ?_).trans ((evalRef_regs hl' hd).trans (evalRef_regs he' hs))
    subst e
    rw [← evalRef_reg hl']
    exact hst
  · exact (wmem (by rw [hmem]; exact hwf) x hx).trans (by rw [hmem])

end

/-! ## REP, REPZ and REPNZ -/

theorem exec_rep : ∀ p ∈ [(Instr.rep, 1#2), (.repz, 2#2), (.repnz, 3#2)], ∀ r s,
    exec (p.1 r) s = runPlain (p.1 r) (repBody p.2 r) s :=
  forall_mem_triple (fun _ _ => rfl) (fun _ _ => rfl) (fun _ _ => rfl)

theorem pcNext_rep : ∀ p ∈ [(Instr.rep, 1#2), (.repz, 2#2), (.repnz, 3#2)], ∀ n s,
    pcNext (p.1 (.reg n)) s = s.pc + 2 :=
  forall_mem_triple (fun _ _ => rfl) (fun _ _ => rfl) (fun _ _ => rfl)

theorem repBody_illegal {mode : BitVec 2} {r : Ref} {next : Word} {s : State} (hreg : ∀ n, r ≠ .reg n)
    (hmiss : ∀ n, r ≠ .missing n) : repBody mode r next s = .trap 16 (s.pc + 2) s := by
  cases r with
  | reg n => exact absurd rfl (hreg n)
  | missing n => exact absurd rfl (hmiss n)
  | _ => rfl

/-- REP, REPZ and REPNZ set PS.REP and PS.REPREG, under a repeat too, which they do not count down (R400, R404). -/
theorem exec_rep_settled {p : (Ref → Instr) × BitVec 2} (hp : p ∈ [(Instr.rep, 1#2), (.repz, 2#2), (.repnz, 3#2)])
    {n : Fin 16} {s : State} (hr : Runs (p.1 (.reg n)) s)
    (hs : (s.withPs { s.ps with rep := p.2, repReg := BitVec.ofNat 4 n.val }).Settled) :
    exec (p.1 (.reg n)) s =
      .next ((s.withPs { s.ps with rep := p.2, repReg := BitVec.ofNat 4 n.val }).onward s.pc (s.pc + 2)) := by
  rw [exec_rep p hp, runPlain_runs hr, pcNext_rep p hp]
  exact finish_final_settled hs

/-- Settles O43. -/
theorem moveAddressRepeat : Obligations.MoveAddressRepeat := by
  refine ⟨fun src des s s₁ s₂ s₃ l v hr he hl hw hs hsp => ⟨?_, fun hb => mova_framed hb he hl hw⟩,
    fun p hp => ⟨fun n s hr hs => exec_rep_settled hp (.inl hr) hs, fun r s hr hreg hmiss => ?_⟩⟩
  · have hps : s₃.ps = s.ps := by
      rw [(writeLoc_control hw).ps, (evalSecond_control hl).ps, (evalTarget_control he).ps]
    have hsame : s₃.withPs s.ps = s₃ := withPs_of_eq hps
    rw [exec_mova, runPlain_runs hr, movaBody_eq_ok he hl hw,
      finish_onward (by rw [hsame]; exact hs) (fun h => hsp (by simpa [popsStack] using h)) (quietSignal_none _), hsame]
  · rw [exec_rep p hp]
    exact runPlain_trap (.inl hr) (repBody_illegal hreg hmiss)

/-! ## A repeat that has ended -/

section
variable {k : RefKind} {r : Ref} {rest : List (RefKind × Ref)} {after : Word} {s : State} (hmiss : ∀ n, r ≠ .missing n)
include hmiss

/-- A specifier of an admitted form is passed over. -/
theorem passOver_allowed (hall : r.allowed k = true) :
    passOver ((k, r) :: rest) after s = passOver rest (after + BitVec.ofNat 32 (r.length k)) s := by
  rw [passOver, hall]
  · rfl
  · exact hmiss

/-- A specifier that is an Operand Error raises it in a skipped instruction too (log 16). -/
theorem passOver_not_allowed (hall : r.allowed k = false) :
    passOver ((k, r) :: rest) after s = .trap 16 after s := by
  rw [passOver, hall]
  · rfl
  · exact hmiss

end

theorem passOver_of_wellFormed : ∀ {refs : List (RefKind × Ref)} {after : Word} {s : State},
    (refs.all fun p => p.2.encodable p.1 && p.2.allowed p.1) = true → passOver refs after s = .ok () s
  | [], _, _, _ => rfl
  | (k, r) :: rest, after, s, h => by
    simp only [List.all_cons, Bool.and_eq_true] at h
    obtain ⟨⟨henc, hall⟩, hrest⟩ := h
    rw [passOver_allowed (by rintro n rfl; rw [Ref.encodable_missing] at henc; cases henc) hall]
    exact passOver_of_wellFormed (by simpa using hrest)

theorem State.Settled.clearRep {s : State} (h : s.Settled) : s.clearRep.Settled := ⟨h.1, h.2.1, h.2.2.1, h.2.2.2⟩

theorem State.Settled.countDown {s : State} (h : s.Settled) (r : Fin 16) : (s.countDown r).Settled :=
  h.congr rfl rfl rfl rfl rfl rfl rfl rfl rfl rfl

/-- A skipped instruction of an admitted form: PS.REP is cleared and pc goes past it (R401). -/
theorem skip_of_wellFormed {i : Instr} {next : Word} {s : State} (hi : i.wellFormed = true) (hs : s.Settled) :
    skip i next s = .next (s.clearRep.onward s.pc next) := by
  have hdone : ((passOver i.parts.refs (afterSpec1 s.pc) s).bind fun _ s => .ok (Done.plain next false) s.clearRep) =
      .ok (Done.plain next false) s.clearRep := Flow.bind_of_ok _ (passOver_of_wellFormed hi)
  rw [skip, hdone]
  exact (finish_settled (.inl rfl) (by rw [advance_onward rfl rfl]; exact hs.clearRep.onward _ _) rfl
    (fun h => by cases h)).trans (by rw [advance_onward rfl rfl]; rfl)

theorem repeatEnds_iff {s : State} :
    repeatEnds s = true ↔ (s.ps.rep = 2 ∧ s.ps.fZ = false) ∨ (s.ps.rep = 3 ∧ s.ps.fZ = true) ∨ s.reg s.ps.repIndex = 0 := by
  simp [repeatEnds, zFails, or_assoc]

theorem runPlain_skips {i : Instr} {body : Word → State → Flow Done} {s : State} (hr : s.ps.rep ≠ 0)
    (he : repeatEnds s = true) : runPlain i body s = skip i (pcNext i s) s := by
  rw [runPlain, if_neg hr, if_pos he]

theorem runBranch_skips {i : Instr} {body : Word → Word → State → Flow Done} {s : State} (hr : s.ps.rep ≠ 0)
    (ho : s.cfg.repBranch = .testThenDecrement) (he : repeatEnds s = true) :
    runBranch i body s = skip i (pcNext i s) s := by
  rw [runBranch, if_neg hr, ho]
  exact if_pos he

theorem runBranch_skips_counted {i : Instr} {body : Word → Word → State → Flow Done} {s : State} (hr : s.ps.rep ≠ 0)
    (ho : s.cfg.repBranch = .decrementThenTest) (he : repeatEnds (s.countDown s.ps.repIndex) = true) :
    runBranch i body s = skip i (pcNext i s) (s.countDown s.ps.repIndex) := by
  rw [runBranch, if_neg hr, ho]
  exact if_pos he

theorem reg_countDown {s : State} {r n : Fin 16} : (s.countDown r).reg n = if n = r then s.reg r - 1 else s.reg n :=
  State.reg_setReg ..

/-- Counting down first, a count of one is the last (R403). -/
theorem repeatEnds_countDown_iff {s : State} :
    repeatEnds (s.countDown s.ps.repIndex) = true ↔
      (s.ps.rep = 2 ∧ s.ps.fZ = false) ∨ (s.ps.rep = 3 ∧ s.ps.fZ = true) ∨ s.reg s.ps.repIndex = 1 := by
  have hcount : (s.countDown s.ps.repIndex).reg s.ps.repIndex = 0 ↔ s.reg s.ps.repIndex = 1 := by
    rw [reg_countDown, if_pos rfl, sub_eq_zero]
  rw [repeatEnds_iff, State.countDown_ps, hcount]

/-- An instruction that a repeat skips up to a specifier that is an Operand Error. -/
theorem skip_trap {i : Instr} {next a : Word} {s : State} (h : passOver i.parts.refs (s.pc + 2) s = .trap 16 a s) :
    skip i next s = takes 16 a (s.noteExecuted s.pc) :=
  congrArg (finish none s.pc) (Flow.bind_of_trap _ h)

theorem illegal_ne_missing {b : Byte} (n : Fin 9) : Ref.illegal b ≠ .missing n := by simp

/-- Settles O44. -/
theorem repeatSkips : Obligations.RepeatSkips := by
  refine ⟨fun i s hi hr hs he ho => ?_, fun i s hi hr hs hbr ho he => ?_, fun s hr he => ⟨?_, fun src k hall hmiss => ?_⟩⟩
  · have hskip : exec i s = skip i (pcNext i s) s := by
      have hshape := exec_shaped i s
      unfold Shaped at hshape
      split at hshape
      · rename_i hbr
        obtain ⟨body, hexec⟩ := hshape
        rw [hexec, runBranch_skips hr (ho hbr) (repeatEnds_iff.2 he)]
      · obtain ⟨body, hexec⟩ := hshape
        rw [hexec, runPlain_skips hr (repeatEnds_iff.2 he)]
    rw [hskip, skip_of_wellFormed hi hs]
    rfl
  · have hshape := exec_shaped i s
    unfold Shaped at hshape
    rw [if_pos hbr] at hshape
    obtain ⟨body, hexec⟩ := hshape
    rw [hexec, runBranch_skips_counted hr ho (repeatEnds_countDown_iff.2 he), skip_of_wellFormed hi (hs.countDown _)]
    rfl
  · have hends := repeatEnds_iff.2 he
    simp only [List.forall_mem_cons, List.not_mem_nil, false_imp_iff, implies_true, and_true]
    exact ⟨fun b => (runPlain_skips hr hends).trans (skip_trap (passOver_not_allowed illegal_ne_missing rfl)),
      fun b => (runPlain_skips hr hends).trans (skip_trap (passOver_not_allowed illegal_ne_missing rfl)),
      fun b => (runPlain_skips hr hends).trans (skip_trap (passOver_not_allowed illegal_ne_missing rfl)),
      fun b => (runPlain_skips hr hends).trans (skip_trap (passOver_not_allowed illegal_ne_missing rfl))⟩
  · exact (runPlain_skips hr (repeatEnds_iff.2 he)).trans
      (skip_trap ((passOver_allowed hmiss hall).trans (passOver_not_allowed (by simp) rfl)))

end Sys2Proof.Machine

/-!
Integer Overflow delivered as interrupt 3 (R186, R484), after the wrapped result and its flags are stored; and the
conversions of a real to a Word (R352, R353), whose overflow it may be.
-/
namespace Sys2Proof.Machine

open Sys2Proof

theorem forall_mem_pair {α : Type} {P : α → Prop} {x y : α} (hx : P x) (hy : P y) : ∀ p ∈ [x, y], P p :=
  List.forall_mem_cons.2 ⟨hx, List.forall_mem_singleton.2 hy⟩

theorem exec_toWord : ∀ p ∈ [(OpType.r, Instr.cvrw), (.l, .cvlw)], ∀ src des s,
    exec (p.2 src des) s =
      runPlain (p.2 src des) (writeBody p.1 .w (realToWordCalc p.1 s.ps (s.freeNext 32)) src des) s :=
  forall_mem_pair (fun _ _ _ => rfl) (fun _ _ _ => rfl)

/-! ## A real to a Word -/

section
variable {ts : OpType} {p : PsReg} {free : Word} {a : BitVec ts.bits}

theorem realToWordCalc_fin {sg : Bool} {m : Nat} {e : Int} (h : (fmtOf ts).value a.toNat = .fin sg m e) :
    realToWordCalc ts p free a =
      .done (BitVec.ofInt 32 (roundToInt p.rc sg m e).value)
        ((p.withArith p.fC (outOfRange 32 (roundToInt p.rc sg m e).value) (decide ((roundToInt p.rc sg m e).value < 0))
          (BitVec.ofInt 32 (roundToInt p.rc sg m e).value == 0)).withFp
            ((roundToInt p.rc sg m e).guard || (roundToInt p.rc sg m e).rest) false false false false)
        ⟨outOfRange 32 (roundToInt p.rc sg m e).value,
          fpSignal ((roundToInt p.rc sg m e).guard || (roundToInt p.rc sg m e).rest) false false
            ⟨(roundToInt p.rc sg m e).up, (roundToInt p.rc sg m e).rest, (roundToInt p.rc sg m e).guard,
              frOperand (fmtOf ts) a.toNat, .unused⟩⟩ 0 := by
  unfold realToWordCalc
  simp only [h]

theorem realToWordCalc_inf {sg : Bool} (h : (fmtOf ts).value a.toNat = .inf sg) :
    realToWordCalc ts p free a = .done free (p.withArith p.fC true sg (free == 0)).clearFp ⟨true, none⟩ 1 := by
  unfold realToWordCalc
  simp only [h]

end

theorem sfaCalc_of_pos (t : OpType) (p : PsReg) {a : Byte} (b : BitVec t.bits) (h : 0 < a.toInt) :
    sfaCalc p a b = arithCalc p
      ⟨b <<< a.toInt.toNat, (b.toNat * 2 ^ a.toInt.toNat).testBit t.bits,
        outOfRange t.bits (b.toInt * 2 ^ a.toInt.toNat), decide (b.toInt < 0), b <<< a.toInt.toNat == 0⟩ := by
  rw [sfaCalc_eq, if_pos h.le, if_neg h.ne', if_pos h, decide_eq_true h, Bool.true_and]

/-! ## What is signalled -/

/-- A result that neither underflows nor overflows as a real signals a delivered Integer Overflow before an inexact result
(R498 item 2). -/
theorem signalled_integerOverflow {p : PsReg} (h : (p.eIV && p.eIE) = true) (ix : Bool) (fr : FrFields) :
    signalled ⟨true, fpSignal ix false false fr⟩ p = some (3, none) := by
  cases ix <;> exact if_pos h

/-- The real numbers' part of `WriteSignals.of` where a free value was drawn for the result. -/
theorem exec_write_drawn {ts td : OpType} {mk : Ref → Ref → Instr} {op : BitVec ts.bits → Calc td.bits} {src des : Ref}
    {s s₁ s₂ s₄ : State} {l₁ l₂ : Loc} {a : BitVec ts.bits} {v : BitVec td.bits} {q : PsReg} {sig : Signal} {k : Nat}
    (hexec : exec (mk src des) s = runPlain (mk src des) (writeBody ts td op src des) s) (hr : Runs (mk src des) s)
    (he : evalBoth ts td .write src des s = .ok (l₁, l₂) s₁) (ha : readLoc ts l₁ s₁ = .ok a s₂)
    (hop : op a = .done v q sig k) (hw : writeLoc td l₂ v (s₂.drew k) = .ok () s₄) :
    exec (mk src des) s =
      finish s.counting s.pc
        (.ok { Done.plain (pcNext (mk src des) s) (popsStack src || popsStack des) with sig := sig } (s₄.withPs q)) := by
  rw [hexec, runPlain_runs hr]
  unfold writeBody
  rw [Flow.bind_of_ok _ he]
  dsimp only
  rw [Flow.bind_of_ok _ ha, hop, settle_done (u := ()) (t := s₄) hw]
  rfl

/-- Settles O23. -/
theorem integerOverflow : Obligations.IntegerOverflow := by
  refine ⟨fun p hp => ModifySignals.of_arithCalc _ (exec_add p hp) (fun s a b _ => by rw [addCore_false]) fun _ _ _ h => h,
    fun p hp => ModifySignals.of_arithCalc _ (exec_adc p hp) (fun s a b _ => by rw [addCore_eq]) fun _ _ _ h => h,
    fun p hp => ModifySignals.of_arithCalc _ (exec_sub p hp) (fun s a b _ => by rw [subCore_false]) fun _ _ _ h => h,
    fun p hp => ModifySignals.of_arithCalc _ (exec_sbb p hp) (fun s a b _ => by rw [subCore_eq]) fun _ _ _ h => h,
    fun p hp => ModifySignals.of_arithCalc _ (exec_sbr p hp) (fun s a b _ => by rw [subCore_false]) fun _ _ _ h => h,
    fun p hp => WriteSignals.of_overflow _ (exec_neg p hp) (fun s a h => by rw [zero_subCore, h.1]; rfl)
      (fun _ _ => ⟨rfl, rfl⟩) fun _ _ h => h.2,
    fun p hp => ModifySignals.of_arithCalc _ (exec_mul p hp) (fun s a b _ => by rw [mulCore_eq]; rfl) fun _ _ _ h => h,
    fun p hp => ModifySignals.of_arithCalc _ (exec_div p hp) (fun s a b h => by rw [divCore_of_ne_zero h.1]; rfl)
      fun _ _ _ h => h.2,
    fun p hp => ModifySignals.of_arithCalc _ (exec_dvr p hp) (fun s a b h => by rw [divCore_of_ne_zero h.1]; rfl)
      fun _ _ _ h => h.2,
    fun p hp => ModifySignals.of_arithCalc _ (exec_sfa p hp) (fun s a b h => ?sfa) fun _ _ _ h => ⟨h.2.1, h.2.2⟩,
    fun p hp => WriteSignals.of_overflow _ (exec_narrow p hp) (fun s a h => ?narrow) (fun _ _ => ⟨rfl, rfl⟩)
      fun _ _ h => h.2,
    fun p hp sg m e rc => WriteSignals.of _ (exec_toWord p hp) fun s a ⟨hval, hrc, hov, hiv⟩ => ?finite,
    fun p hp src des s s₁ s₂ s₄ l₁ l₂ a sg hr he ha hinf hiv hw hbus hsp => ?infinite⟩
  case sfa =>
    exact sfaCalc_of_pos p.1 s.ps b h.1
  case narrow => simp only [narrowCalc, h.1]
  case finite =>
    subst hrc
    rw [realToWordCalc_fin hval, hov]
    exact ⟨_, rfl, signalled_integerOverflow hiv _ _⟩
  case infinite =>
    rw [exec_write_drawn (exec_toWord p hp src des s) hr he ha (realToWordCalc_inf hinf) hw]
    have hsig : signalled ⟨true, none⟩ (s.ps.withArith s.ps.fC true sg (s.freeNext 32 == 0)).clearFp = some (3, none) :=
      if_pos hiv
    exact finish_signal (wrote := popsStack src || popsStack des) hbus (fun h => hsp (by simpa [popsStack] using h)) hsig

end Sys2Proof.Machine

/-!
Instructions under a repeat that goes on (R401 to R404): what completes counts down, what an exception suppresses does not,
and what the repeat post-step does not follow. The exceptions of evaluating, reading and storing an operand are those of
R191 and R499, and leave PS and the count register alone.
-/
namespace Sys2Proof.Machine

open Sys2Proof

/-! ## The exceptions a part can raise -/

/-- Every exception a part raises has property `Q` of its number, its pushed address and the state it leaves. -/
def Flow.Raises {α : Type} (Q : Nat → Word → State → Prop) (x : Flow α) : Prop :=
  match x with
  | .ok _ _ => True
  | .trap n a s => Q n a s
  | .fault _ => True
  | .refuse _ => True

theorem Flow.Raises.of_trap {α : Type} {Q : Nat → Word → State → Prop} {x : Flow α} {n : Nat} {a : Word} {s : State}
    (h : x.Raises Q) (he : x = .trap n a s) : Q n a s := by rw [he] at h; exact h

theorem Flow.Raises.mono {α : Type} {Q R : Nat → Word → State → Prop} {x : Flow α} (h : x.Raises Q)
    (hQR : ∀ n a s, Q n a s → R n a s) : x.Raises R := by
  cases x with
  | trap n a s => exact hQR n a s h
  | ok a s => trivial
  | fault f => trivial
  | refuse r => trivial

theorem Flow.Raises.bind {α β : Type} {Q : Nat → Word → State → Prop} {x : Flow α} {f : α → State → Flow β}
    (hx : x.Raises Q) (hf : ∀ a s, x = .ok a s → (f a s).Raises Q) : (x.bind f).Raises Q := by
  cases x with
  | ok a s => exact hf a s rfl
  | trap n a s => exact hx
  | fault f => trivial
  | refuse r => trivial

theorem Flow.Raises.bind_ok {α β : Type} {Q : Nat → Word → State → Prop} {x : Flow α} {f : α → State → β}
    {g : α → State → State} (hx : x.Raises Q) : (x.bind fun a s => .ok (f a s) (g a s)).Raises Q :=
  hx.bind fun _ _ _ => trivial

/-- Nothing but an Address Error with `pc` pushed, in the very state (R191, R492). -/
def OnlyAddressError (s : State) (n : Nat) (a : Word) (t : State) : Prop := n = 11 ∧ a = s.pc ∧ t = s

theorem agentsTurn_raises (Q : Nat → Word → State → Prop) (s : State) : (agentsTurn s).Raises Q := by
  unfold agentsTurn
  split <;> trivial

theorem readAtoms_raises (Q : Nat → Word → State → Prop) : ∀ (l : List (Nat × Nat)) (s : State), (readAtoms l s).Raises Q
  | [], _ => trivial
  | (_, _) :: rest, s => (agentsTurn_raises Q s).bind fun _ t _ => (readAtoms_raises Q rest t).bind_ok

theorem writeAtoms_raises (Q : Nat → Word → State → Prop) :
    ∀ (l : List (Nat × Nat)) (v : Nat) (s : State), (writeAtoms l v s).Raises Q
  | [], _, _ => trivial
  | (_, _) :: rest, _, s => (agentsTurn_raises Q s).bind fun _ _ _ => writeAtoms_raises Q rest _ _

theorem loadN_raises (a : Word) (n : Nat) (s : State) : (loadN a n s).Raises (OnlyAddressError s) := by
  unfold loadN
  split
  · exact readAtoms_raises _ _ _
  · exact ⟨rfl, rfl, rfl⟩
  · trivial

theorem storeN_raises (a : Word) (n v : Nat) (s : State) : (storeN a n v s).Raises (OnlyAddressError s) := by
  unfold storeN
  split
  · exact writeAtoms_raises _ _ _ _
  · exact ⟨rfl, rfl, rfl⟩
  · trivial

theorem readLoc_raises (t : OpType) (l : Loc) (s : State) : (readLoc t l s).Raises (OnlyAddressError s) := by
  cases l with
  | mem a => exact (loadN_raises a t.len s).bind_ok
  | _ => trivial

/-- Storing raises nothing but an Address Error, a push having moved SP (log 32). -/
theorem writeLoc_raises (t : OpType) (l : Loc) (v : BitVec t.bits) (s : State) :
    (writeLoc t l v s).Raises fun n a u => n = 11 ∧ a = s.pc ∧ u.ps = s.ps ∧ u.regs = s.regs := by
  cases l with
  | mem a => exact (storeN_raises a _ _ s).mono fun n a u ⟨hn, ha, hu⟩ => ⟨hn, ha, by rw [hu], by rw [hu]⟩
  | push =>
    exact (storeN_raises _ _ _ { s with sp := s.sp - BitVec.ofNat 32 t.len }).mono fun n a u ⟨hn, ha, hu⟩ =>
      ⟨hn, ha, by rw [hu], by rw [hu]⟩
  | lit k => trivial
  | imm k => trivial
  | reg n => trivial

/-- An Address Error with `pc0` pushed, or an Operand Error with the address after the specifier (R191, R499). -/
def EvalException (pc0 w : Word) (n : Nat) (a : Word) : Prop := (n = 11 ∧ a = pc0) ∨ (n = 16 ∧ a = w)

theorem sumAddress_raises (b : Word) (o : Int) (s : State) (w : Word) :
    (sumAddress b o s).Raises fun n a _ => EvalException s.pc w n a := by
  simp only [sumAddress]
  split
  · trivial
  · exact .inl ⟨rfl, rfl⟩

theorem pointer_raises (p : Word) (s : State) (w : Word) : (pointer p s).Raises fun n a _ => EvalException s.pc w n a :=
  ((loadN_raises p 4 s).mono fun _ _ _ ⟨hn, ha, _⟩ => .inl ⟨hn, ha⟩).bind_ok

theorem atSum_raises (b : Word) (o : Int) (s : State) (w : Word) :
    (atSum b o s).Raises fun n a _ => EvalException s.pc w n a := (sumAddress_raises b o s w).bind_ok

theorem throughSum_raises (b : Word) (o : Int) (s : State) (w : Word) :
    (throughSum b o s).Raises fun n a _ => EvalException s.pc w n a :=
  (sumAddress_raises b o s w).bind fun p t ht => by
    obtain ⟨rfl, -⟩ := sumAddress_eq_ok ht
    exact pointer_raises p t w

theorem evalRef_raises (role : Role) (len : Nat) (sp0 w : Word) (r : Ref) (s : State) :
    (evalRef role len sp0 w r s).Raises fun n a _ => EvalException s.pc w n a := by
  cases r with
  | lit k => unfold evalRef; dsimp only; split; exacts [.inr ⟨rfl, rfl⟩, trivial]
  | imm v => unfold evalRef; dsimp only; split; exacts [.inr ⟨rfl, rfl⟩, trivial]
  | reg n | ind n | autoSkip n | autoInc n | autoDec n | dirB a | dirH a | dirW a => trivial
  | autoIncInd n => exact (pointer_raises _ s w).bind_ok
  | dirInd a => exact pointer_raises _ s w
  | offB n o | offH n o | offW n o | pcB o | pcH o | pcW o | spB o | spH o | spW o => exact atSum_raises _ _ s w
  | offInd n o | pcInd o | spInd o => exact throughSum_raises _ _ s w
  | stk =>
    cases role with
    | src =>
      exact (((loadN_raises s.sp len s).mono fun _ _ _ ⟨hn, ha, _⟩ => .inl ⟨hn, ha⟩).bind_ok).bind_ok
    | modify | write | look | address => trivial
  | illegal b => exact .inr ⟨rfl, rfl⟩
  | missing n => unfold evalRef missingBytes; dsimp only; split; exacts [.inl ⟨rfl, rfl⟩, trivial]

theorem evalBoth_raises (ts td : OpType) (role : Role) (src des : Ref) (s : State) :
    (evalBoth ts td role src des s).Raises fun n a _ =>
      (n = 11 ∧ a = s.pc) ∨ (n = 16 ∧ (a = s.pc + 2 ∨ a = afterSpec2 s.pc (.value ts) src)) := by
  refine ((evalRef_raises _ _ _ _ _ _).mono fun n a _ h => h.imp_right fun ⟨hn, ha⟩ => ⟨hn, .inl ha⟩).bind
    fun l t ht => ?_
  have hpc : t.pc = s.pc := (evalRef_control ht).pc
  refine Flow.Raises.bind_ok ?_
  unfold evalSecond
  split
  · trivial
  · rw [← hpc]
    exact (evalRef_raises _ _ _ _ _ _).mono fun n a _ h => h.imp_right fun ⟨hn, ha⟩ => ⟨hn, .inr ha⟩

/-! ## What an exception leaves of the repeat -/

/-- PS and the count register of a repeat in effect are as they were. -/
structure SameRepeat (s t : State) : Prop where
  ps : t.ps = s.ps
  count : t.reg s.ps.repIndex = s.reg s.ps.repIndex

theorem Flow.Ends.of_trap {α : Type} {P : State → Prop} {x : Flow α} {n : Nat} {a : Word} {s : State} (h : x.Ends P)
    (he : x = .trap n a s) : P s := by rw [he] at h; exact h

/-- Operands are evaluated and read without a change of the count register, where no reference moves it. -/
theorem reads_repeat (s : State) : Reads (· ≠ s.ps.repIndex) True (SameRepeat s) where
  turn _ _ e h := ⟨(letAgents_frame e).control.ps.trans h.ps, by
    rw [State.reg, (letAgents_frame e).regs]; exact h.count⟩
  reg _ _ v hm h := ⟨h.ps, (State.reg_setReg_other v hm).trans h.count⟩
  sp _ _ _ h := ⟨h.ps, h.count⟩

theorem Ref.moves_of_not_names {k : RefKind} {c : Fin 16} {r : Ref} (h : Ref.names k c r = false) : Ref.moves c r = false := by
  cases r with
  | autoSkip n => exact (Bool.or_eq_false_iff.1 h).1
  | autoInc n => exact h
  | autoIncInd n => exact h
  | autoDec n => exact h
  | _ => rfl

theorem namesRegister_two {c : Fin 16} {i : Instr} {b : Byte} {k₁ k₂ : RefKind} {src des : Ref}
    (hi : i.parts = ⟨b, [(k₁, src), (k₂, des)]⟩) :
    namesRegister c i = false ↔ Ref.names k₁ c src = false ∧ Ref.names k₂ c des = false := by
  unfold namesRegister
  rw [hi]
  simp

section
variable {ts td : OpType} {role : Role} {src des : Ref} {k₁ k₂ : RefKind} {s : State}

theorem evalBoth_repeat (hrole : role ≠ .src) (hs : Ref.names k₁ s.ps.repIndex src = false)
    (hd : Ref.names k₂ s.ps.repIndex des = false) : (evalBoth ts td role src des s).Ends (SameRepeat s) :=
  (reads_repeat s).evalBoth ts td role src des
    (fun _ h e => by rw [e, Ref.moves_of_not_names hs] at h; cases h)
    (fun _ h e => by rw [e, Ref.moves_of_not_names hd] at h; cases h)
    (fun _ => trivial) hrole ⟨rfl, rfl⟩

end

theorem readLoc_repeat {s t : State} (ty : OpType) (l : Loc) (h : SameRepeat s t) : (readLoc ty l t).Ends (SameRepeat s) :=
  (reads_repeat s).readLoc ty l h

/-! ## Instructions that complete -/

theorem goesOn_of_repeats {s t : State} {i : Instr} (h : s.Repeats 0) :
    t.goesOn i s = (t.onward s.pc s.pc).countDown s.ps.repIndex := if_neg h.1

theorem runs_of_repeats {s : State} {i : Instr} (h : s.Repeats 0) (hn : namesRegister s.ps.repIndex i = false) :
    Runs i s := .inr ⟨h, hn⟩

theorem exec_simple_repeats {i : Instr} {act : State → State} {s : State} (hi : i.parts.refs = [])
    (hexec : exec i s = runPlain i (simpleBody act) s) (h : s.Repeats 0) (hs : (act s).Settled) :
    exec i s = .next (((act s).onward s.pc s.pc).countDown s.ps.repIndex) := by
  have hn : namesRegister s.ps.repIndex i = false := by unfold namesRegister; rw [hi]; rfl
  rw [exec_simple hexec (runs_of_repeats h hn) hs, goesOn_of_repeats h]

section
variable {src des : Ref} {s s₁ s₂ s₃ t : State} {l₁ l₂ : Loc} {v : Word} {n : Byte}

theorem exec_ldpr (src des : Ref) (s : State) :
    exec (.ldpr src des) s = runPlain (.ldpr src des) (lookBody .w .b ldprAct src des) s := rfl

theorem exec_ldpr_reads (hr : Runs (.ldpr src des) s) (he : evalBoth .w .b .look src des s = .ok (l₁, l₂) s₁)
    (hv : readLoc .w l₁ s₁ = .ok v s₂) (hn : readLoc .b l₂ s₂ = .ok n s₃) :
    exec (.ldpr src des) s =
      finish s.counting s.pc (ldprAct v n (Done.plain (pcNext (.ldpr src des) s) (popsStack src)) s₃) := by
  rw [exec_ldpr, runPlain_runs hr]
  exact congrArg (finish _ _) ((lookBody_of_evalBoth _ he).trans ((Flow.bind_of_ok _ hv).trans (Flow.bind_of_ok _ hn)))

theorem ldprAct_eq_ok {d : Done} (h : s.setProcReg n.toNat v = some t) :
    ldprAct v n d s = .ok { d with wroteSp := d.wroteSp || n == 0, post := n != 1 } t := by
  unfold ldprAct
  rw [h]

/-- What LDPR leaves to the end of the step. -/
theorem exec_ldpr_loads (hr : Runs (.ldpr src des) s) (he : evalBoth .w .b .look src des s = .ok (l₁, l₂) s₁)
    (hv : readLoc .w l₁ s₁ = .ok v s₂) (hn : readLoc .b l₂ s₂ = .ok n s₃) (h : s₃.setProcReg n.toNat v = some t) :
    exec (.ldpr src des) s =
      finish s.counting s.pc
        (.ok { Done.plain (pcNext (.ldpr src des) s) (popsStack src || n == 0) with post := n != 1 } t) :=
  (exec_ldpr_reads hr he hv hn).trans (congrArg (finish _ _) (ldprAct_eq_ok h))

end

/-! ## A branch once -/

theorem taken_clearRep : ∀ p ∈ branchTable, ∀ q : PsReg, p.2.2 { q with rep := 0 } = p.2.2 q := by
  unfold branchTable
  simp only [List.forall_mem_cons, List.not_mem_nil, false_imp_iff, implies_true, and_true]

theorem exec_branch_looped {p : (Ref → Instr) × Bool × (PsReg → Bool)} (hp : p ∈ branchTable) {src : Ref} {s s₁ : State}
    {t : Word} (h : s.BranchRuns (p.1 src)) (he : evalTarget s.sp (s.pc + 2) src s.looped = .ok t s₁) :
    exec (p.1 src) s = finish none s.pc
      (if p.2.1 && s.ps.fU then .trap 9 s.pc (s₁.withPs { s.ps with rep := 0, fIN := true })
      else if p.2.2 s.ps then .ok (Done.jump t false) s₁ else .ok (Done.plain (pcNext (p.1 src) s) false) s₁) := by
  have htaken : p.2.2 s.looped.ps = p.2.2 s.ps := taken_clearRep p hp s.ps
  rw [exec_branch p hp, runBranch_runs h, branchBody_of_target (s := s.looped) _ _ _ he, htaken]
  rfl

/-- CALL, RET and RETP end with PS.REP clear, as they were entered. -/
theorem clearRep_of_looped {s t : State} (h : t.ps = s.looped.ps) : t.clearRep = t :=
  clearRep_of_once (by rw [h]; rfl)

theorem namesRegister_rep : ∀ p ∈ [(Instr.rep, 1#2), (.repz, 2#2), (.repnz, 3#2)], ∀ {n c : Fin 16}, n ≠ c →
    namesRegister c (p.1 (.reg n)) = false := by
  have count : ∀ {n c : Fin 16}, n ≠ c → [(RefKind.count, Ref.reg n)].any (fun p => Ref.names p.1 c p.2) = false := by
    intro n c h
    simp [Ref.names, h, RefKind.len]
  exact forall_mem_triple (fun h => count h) (fun h => count h) (fun h => count h)

/-- The instructions without references that only change the state, each with its change (R410 to R417). -/
def simpleInstrs : List (Instr × (State → State)) :=
  [(.nop, fun s => s), (.clc, fun s => s.withPs { s.ps with fC := false }),
    (.stc, fun s => s.withPs { s.ps with fC := true }), (.cmc, fun s => s.withPs { s.ps with fC := !s.ps.fC }),
    (.ei, fun s => s.withPs { s.ps with eIE := true }), (.di, fun s => s.withPs { s.ps with eIE := false }),
    (.eron, fun s => { s with errorFlag := true }), (.erof, fun s => { s with errorFlag := false })]

theorem exec_simpleInstrs : ∀ p ∈ simpleInstrs,
    p.1.parts.refs = [] ∧ ∀ s, exec p.1 s = runPlain p.1 (simpleBody p.2) s := by
  unfold simpleInstrs
  simp only [List.forall_mem_cons, List.not_mem_nil, false_imp_iff, implies_true, and_true]
  exact ⟨⟨rfl, fun _ => rfl⟩, ⟨rfl, fun _ => rfl⟩, ⟨rfl, fun _ => rfl⟩, ⟨rfl, fun _ => rfl⟩, ⟨rfl, exec_ei⟩, ⟨rfl, exec_di⟩,
    ⟨rfl, exec_eron⟩, rfl, exec_erof⟩

/-- Settles O45. -/
theorem repeatRuns : Obligations.RepeatRuns := by
  refine ⟨⟨fun p hp s h hs => exec_simple_repeats (exec_simpleInstrs p hp).1 ((exec_simpleInstrs p hp).2 s) h hs,
      fun p hp src des s s₁ s₂ s₄ l₁ l₂ a h hn he ha hw hs hsp => ?move,
      fun src des s s₁ s₂ s₃ s₄ l₁ l₂ a b q h hn he ha hb hw hq hsp => ⟨fun hv hs => ?add, fun hv hi hbus => ?overflow⟩⟩,
    ⟨fun src des s s₁ n a h hn he => ?evalRaises, fun src des s s₁ s₂ l₁ l₂ n a h hn he ha => ?accessRaises,
      fun src des s s₁ s₂ s₃ l₁ l₂ b h hn he ha hb => ?zeroDivide⟩,
    fun s h => ⟨fun p hp n hne hs => ?rep, fun t he hb hu ha => ?bkpt, fun src s₁ s₂ t l n hn he hv hent hb hu ha => ?trap,
      fun s₁ a hret hs hsp => ?reti, fun hb hT ha => ?rset, fun hs => ?wait,
      fun src des s₁ s₂ s₃ l₁ l₂ v hn he hv hk hs hsp => ?ldpr⟩,
    fun p hp src s s₁ t h he => ⟨fun hU hs => ?branch, fun hU => ?invalid⟩,
    fun src s s₁ s₂ t h he hpush hs hsp => ?call, fun s s₁ t h hpop hs hsp => ?ret,
    fun src s s₁ s₂ s₃ l k t h he hk hpop hs hsp => ?retp,
    fun s => ⟨rfl, ?_, fun n hn => ?_, rfl⟩⟩
  case move =>
    have hps : s₄.ps = s.ps :=
      (((evalBoth_control (by decide) he).trans (readLoc_control ha)).trans (writeLoc_control hw)).ps
    have hmove := (moves p hp src des s s₁ s₂ s₄ l₁ l₂ a (runs_of_repeats h hn) he ha trivial hw
      (by rw [withPs_of_eq hps]; exact hs) hsp).1
    rw [hmove, withPs_of_eq hps, goesOn_of_repeats h]
  case add =>
    subst hq
    rw [(additions.1 (.w, .addw) (by simp) src des s s₁ s₂ s₃ s₄ l₁ l₂ a b (runs_of_repeats h hn) he ha hb hv hw hs hsp).1,
      goesOn_of_repeats h]
    rfl
  case overflow =>
    have hsig := integerOverflow.1 (.w, .addw) (by simp) src des s s₁ s₂ s₃ s₄ l₁ l₂ a b (runs_of_repeats h hn) he ha hb
      ⟨hv, hi⟩ hw hbus hsp
    rw [hsig, goesOn_of_repeats h, hq, hv]
    rfl
  case evalRaises =>
    obtain ⟨hsrc, hdes⟩ := (namesRegister_two (i := .movw src des) rfl).1 hn
    have hrep := (evalBoth_repeat (ts := .w) (td := .w) (role := .write) (by decide) hsrc hdes).of_trap he
    exact ⟨runPlain_trap (runs_of_repeats h hn) (Flow.bind_of_trap _ he), hrep.ps, hrep.count,
      (evalBoth_raises .w .w .write src des s).of_trap he⟩
  case accessRaises =>
    obtain ⟨hsrc, hdes⟩ := (namesRegister_two (i := .movw src des) rfl).1 hn
    have hrep := (evalBoth_repeat (ts := .w) (td := .w) (role := .write) (by decide) hsrc hdes).of_ok he
    have hpc : s₁.pc = s.pc := (evalBoth_control (by decide) he).pc
    rcases ha with ha | ⟨v, s₀, ha, hw⟩
    · obtain ⟨rfl, rfl, rfl⟩ := (readLoc_raises .w l₁ s₁).of_trap ha
      refine ⟨rfl, hpc, ?_, hrep.ps, hrep.count⟩
      rw [hpc] at ha
      exact runPlain_trap (runs_of_repeats h hn) ((writeBody_of_evalBoth _ he).trans (Flow.bind_of_trap _ ha))
    · obtain ⟨rfl, rfl, hps, hregs⟩ := (writeLoc_raises .w l₂ v s₀).of_trap hw
      have hread := (readLoc_repeat .w l₁ hrep).of_ok ha
      have hpc₀ : s₀.pc = s.pc := (readLoc_control ha).pc.trans hpc
      refine ⟨rfl, hpc₀, ?_, hps.trans hread.ps, by rw [State.reg, hregs]; exact hread.count⟩
      rw [hpc₀] at hw
      exact runPlain_trap (runs_of_repeats h hn)
        ((writeBody_of_evalBoth _ he).trans ((Flow.bind_of_ok _ ha).trans (settle_move_trap hw)))
  case zeroDivide =>
    obtain ⟨hsrc, hdes⟩ := (namesRegister_two (i := .divw src des) rfl).1 hn
    have heval := (evalBoth_repeat (ts := .w) (td := .w) (role := .modify) (by decide) hsrc hdes).of_ok he
    have hread := (readLoc_repeat .w l₂ ((readLoc_repeat .w l₁ heval).of_ok ha)).of_ok hb
    refine ⟨?_, hread.ps, hread.count⟩
    rw [integerZeroDivide.1 (.w, .divw) (by simp) src des s s₁ s₂ s₃ l₁ l₂ 0 b (runs_of_repeats h hn) he ha hb rfl,
      withPs_of_eq hread.ps]
    rfl
  case rep =>
    exact exec_rep_settled hp (runs_of_repeats h (namesRegister_rep p hp hne)) hs
  case bkpt => exact exec_bkpt_entered (runs_of_repeats h rfl) he hb hu ha
  case trap => exact exec_trap_entered (runs_of_repeats h hn) he hv hent hb hu ha
  case reti => exact exec_reti_settled (runs_of_repeats h rfl) hret hs hsp
  case rset =>
    rw [exec_rset, runPlain_runs (runs_of_repeats h rfl)]
    exact finish_final_settled ⟨hb, hT, rfl, ha⟩
  case wait =>
    rw [exec_wait, runPlain_runs (runs_of_repeats h rfl)]
    exact finish_final_settled hs
  case ldpr =>
    have hcfg : s₃.cfg = s.cfg :=
      (((evalBoth_control (by decide) he).trans (readLoc_control hv)).trans (readLoc_control hk)).cfg
    have hset : s₃.setProcReg (1 : Byte).toNat v = some (s₃.withPs (PsReg.ofWord s.cfg v)) := by rw [← hcfg]; rfl
    rw [exec_ldpr_loads (runs_of_repeats h hn) he hv hk hset]
    refine finish_settled (d := { Done.plain _ (popsStack src || false) with post := false }) (.inr rfl)
      (hs.onward _ _) rfl fun hw => hsp ?_
    replace hw : (popsStack src || false) = true := hw
    rw [Bool.or_false] at hw
    exact beq_iff_eq.1 hw
  case branch =>
    rw [exec_branch_looped hp h he, if_neg (by rw [hU]; decide)]
    exact finish_branch_settled _ hs
  case invalid =>
    rw [exec_branch_looped hp h he, if_pos hU]
    rfl
  case call =>
    have hps : s₂.ps = s.looped.ps := (push4_processor hpush).control.ps.trans (evalTarget_control he).ps
    rw [exec_call, runBranch_runs h, callBody_eq_ok (s := s.looped) he hpush, clearRep_of_looped hps]
    exact finish_jump hs hsp
  case ret =>
    rw [exec_ret, runBranch_runs h, retBody_eq_ok hpop, clearRep_of_looped (pop4_processor hpop).control.ps]
    exact finish_jump hs hsp
  case retp =>
    have hps : s₃.ps = s.looped.ps :=
      (pop4_processor hpop).control.ps.trans ((readLoc_control hk).ps.trans (evalRef_control he).ps)
    rw [exec_retp, runBranch_runs h, retpBody_eq_ok (s := s.looped) he hk hpop,
      clearRep_of_looped (t := { s₃ with sp := s₃.sp + k }) hps]
    exact finish_jump hs hsp
  · exact (reg_countDown (s := s)).trans (if_pos rfl)
  · exact (reg_countDown (s := s)).trans (if_neg hn)

end Sys2Proof.Machine

/-!
Registers seen as words: PS through its layout (R27, R32), the port registers through theirs (R39 to R45), and LDPR and STPR
(R426, R427), which move them.
-/
namespace Sys2Proof.Machine

open Sys2Proof

/-! ## Words put together from flags -/

theorem getLsbD_orBits {w i : Nat} (hi : i < w) : ∀ l : List (Nat × Bool),
    (orBits w l).getLsbD i = l.any fun p => p.2 && p.1 == i
  | [] => by simp [orBits]
  | (k, b) :: rest => by
    rw [orBits, BitVec.getLsbD_or, getLsbD_orBits hi rest, List.any_cons]
    congr 1
    cases b with
    | false => simp
    | true =>
      simp only [if_true, BitVec.getLsbD_shiftLeft, hi, decide_true, Bool.true_and, BitVec.getLsbD_one]
      by_cases hk : k = i
      · simp [hk]; omega
      · have hne : (k == i) = false := beq_eq_false_iff_ne.2 hk
        simp only [hne, Bool.and_eq_false_iff, Bool.not_eq_false', decide_eq_true_eq, decide_eq_false_iff_not]
        omega

theorem any_zip_of_nodup {keys : List Nat} {vals : List Bool} (hk : keys.Nodup) {j : Nat} (hj : j < keys.length)
    (hv : j < vals.length) : ((keys.zip vals).any fun p => p.2 && p.1 == keys[j]) = vals[j] := by
  rw [Bool.eq_iff_iff, List.any_eq_true]
  constructor
  · rintro ⟨p, hp, h⟩
    obtain ⟨m, hm, rfl⟩ := List.mem_iff_getElem.1 hp
    simp only [List.getElem_zip, Bool.and_eq_true, beq_iff_eq] at h
    obtain rfl := (hk.getElem_inj_iff).1 h.2
    exact h.1
  · intro h
    exact ⟨(keys[j], vals[j]), List.mem_iff_getElem.2 ⟨j, by simp [hj, hv], by simp⟩, by simp [h]⟩

theorem any_zip_of_not_mem {keys : List Nat} {vals : List Bool} {k : Nat} (h : k ∉ keys) :
    ((keys.zip vals).any fun p => p.2 && p.1 == k) = false := by
  rw [List.any_eq_false]
  rintro ⟨i, b⟩ hp
  have hi := (List.of_mem_zip hp).1
  simp only [Bool.and_eq_true, beq_iff_eq, not_and]
  rintro - rfl
  exact h hi

section
variable {w k n : Nat} {v : Vector (Fin k) n} {vals : List Bool}

/-- The bit a layout gives to flag `i` is that flag. -/
theorem getLsbD_orBits_layout (hw : k ≤ w) (hv : v.toList.Nodup) (hl : vals.length = n) (i : Fin n) :
    (orBits w ((v.toList.map Fin.val).zip vals)).getLsbD (v.get i).val = vals[i.val]'(hl ▸ i.isLt) := by
  have hlen : i.val < (v.toList.map Fin.val).length := by simp
  have hkey : (v.get i).val = (v.toList.map Fin.val)[i.val] := by simp [Vector.get_eq_getElem]
  rw [getLsbD_orBits (Nat.lt_of_lt_of_le (v.get i).isLt hw), hkey]
  exact any_zip_of_nodup (hv.map Fin.val_injective) hlen _

/-- A bit the layout gives to no flag is 0. -/
theorem getLsbD_orBits_unused {b : Fin k} (hw : k ≤ w) (hb : ∀ i, v.get i ≠ b) :
    (orBits w ((v.toList.map Fin.val).zip vals)).getLsbD b.val = false := by
  rw [getLsbD_orBits (Nat.lt_of_lt_of_le b.isLt hw)]
  refine any_zip_of_not_mem fun h => ?_
  obtain ⟨x, hx, he⟩ := List.mem_map.1 h
  obtain ⟨i, hi, rfl⟩ := List.mem_iff_getElem.1 hx
  exact hb ⟨i, by simpa using hi⟩ (Fin.ext (by simpa [Vector.get_eq_getElem] using he))

end

/-! ## PS as a word -/

/-- A layout that gives its sixteen fields different bits gives each bit to one of them. -/
theorem exists_get_of_nodup {v : Vector (Fin 16) 16} (hv : v.toList.Nodup) (b : Fin 16) : ∃ i, v.get i = b := by
  have hinj : Function.Injective v.get := fun i j h => by
    rw [Vector.get_eq_getElem, Vector.get_eq_getElem] at h
    have h' : v.toList[i.val]'(by simp) = v.toList[j.val]'(by simp) := by simpa using h
    exact Fin.ext (hv.getElem_inj_iff.1 h')
  exact Finite.injective_iff_surjective.1 hinj b

theorem lowFields_ofWord (cfg : Params) (w : Word) :
    (PsReg.ofWord cfg w).lowFields = List.ofFn fun i => w.getLsbD (cfg.psLow.get i).val := rfl

/-- A bit put below a field that begins one above it. -/
theorem extractLsb'_append_bit (w : Word) (k n : Nat) :
    w.extractLsb' (k + 1) n ++ BitVec.ofBool (w.getLsbD k) = w.extractLsb' k (n + 1) := by
  have hbit : BitVec.ofBool (w.getLsbD k) = w.extractLsb' k 1 := by
    refine BitVec.eq_of_getLsbD_eq fun i hi => ?_
    obtain rfl : i = 0 := by omega
    simp
  rw [hbit]
  exact BitVec.extractLsb'_append_extractLsb'_eq_extractLsb' rfl

theorem highHalf_ofWord (cfg : Params) (w : Word) : (PsReg.ofWord cfg w).highHalf = w.extractLsb' 16 16 := by
  have hrep : w.extractLsb' 30 2 ++ w.extractLsb' 26 4 ++ w.extractLsb' 24 2 = w.extractLsb' 24 8 := by
    rw [BitVec.extractLsb'_append_extractLsb'_eq_extractLsb' (start₂ := 30) (start₁ := 26) rfl]
    exact BitVec.extractLsb'_append_extractLsb'_eq_extractLsb' (start₂ := 26) (start₁ := 24) rfl
  unfold PsReg.highHalf PsReg.ofWord
  dsimp only
  rw [hrep]
  simp only [extractLsb'_append_bit]

theorem extractLsb'_highHalf (p : PsReg) :
    p.highHalf.extractLsb' 14 2 = p.rep ∧ p.highHalf.extractLsb' 10 4 = p.repReg ∧ p.highHalf.extractLsb' 8 2 = p.rc := by
  unfold PsReg.highHalf
  simp only [BitVec.extractLsb'_append_eq_of_le, Nat.reduceLeDiff, Nat.reduceSub, BitVec.extractLsb'_eq_self, true_and]
  exact ⟨BitVec.extractLsb'_append_eq_right, BitVec.extractLsb'_append_eq_right⟩

theorem getLsbD_highHalf (p : PsReg) :
    p.highHalf.getLsbD 7 = p.r23 ∧ p.highHalf.getLsbD 6 = p.r22 ∧ p.highHalf.getLsbD 5 = p.eT ∧
      p.highHalf.getLsbD 4 = p.eIE ∧ p.highHalf.getLsbD 3 = p.eIO ∧ p.highHalf.getLsbD 2 = p.eII ∧
      p.highHalf.getLsbD 1 = p.eTO ∧ p.highHalf.getLsbD 0 = p.eCE := by
  unfold PsReg.highHalf
  simp only [BitVec.getLsbD_append, Nat.reduceLT, Nat.reduceSub, if_false, if_true, BitVec.getLsbD_ofBool,
    Nat.reduceEqDiff, decide_true, Bool.true_and, and_self]

theorem lowHalf_ofWord {cfg : Params} (h : cfg.psLow.toList.Nodup) (w : Word) :
    (PsReg.ofWord cfg w).lowHalf cfg.psLow = w.extractLsb' 0 16 := by
  refine BitVec.eq_of_getLsbD_eq fun i hi => ?_
  obtain ⟨j, hj⟩ := exists_get_of_nodup h ⟨i, hi⟩
  have hbit := getLsbD_orBits_layout (vals := (PsReg.ofWord cfg w).lowFields) (w := 16) le_rfl h rfl j
  rw [hj] at hbit
  refine hbit.trans ?_
  simp only [lowFields_ofWord, List.getElem_ofFn]
  rw [hj]
  simp [hi]

theorem getLsbD_toWord_low {cfg : Params} (h : cfg.psLow.toList.Nodup) (p : PsReg) (i : Fin 16) :
    (p.toWord cfg).getLsbD (cfg.psLow.get i).val = p.lowFields[i.val]'i.isLt := by
  unfold PsReg.toWord
  rw [BitVec.getLsbD_append, if_pos (cfg.psLow.get i).isLt]
  exact getLsbD_orBits_layout (vals := p.lowFields) le_rfl h rfl i

theorem getLsbD_toWord_high (cfg : Params) (p : PsReg) (i : Nat) :
    (p.toWord cfg).getLsbD (i + 16) = p.highHalf.getLsbD i := by
  unfold PsReg.toWord
  rw [BitVec.getLsbD_append, if_neg (by omega), Nat.add_sub_cancel]

theorem extractLsb'_toWord_high (cfg : Params) (p : PsReg) (i n : Nat) :
    (p.toWord cfg).extractLsb' (i + 16) n = p.highHalf.extractLsb' i n := by
  unfold PsReg.toWord
  rw [BitVec.extractLsb'_append_eq_of_le (by omega), Nat.add_sub_cancel]

/-- Settles O49. -/
theorem statusImage : Obligations.StatusImage := by
  intro cfg h
  refine ⟨fun w => ?_, fun p => ?_⟩
  · unfold PsReg.toWord
    rw [highHalf_ofWord, lowHalf_ofWord h]
    exact (BitVec.extractLsb'_append_extractLsb'_eq_extractLsb' rfl).trans BitVec.extractLsb'_eq_self
  · have low := getLsbD_toWord_low h p
    have bit := getLsbD_toWord_high cfg p
    have field := extractLsb'_toWord_high cfg p
    obtain ⟨hrep, hreg, hrc⟩ := extractLsb'_highHalf p
    obtain ⟨h23, h22, hT, hIE, hIO, hII, hTO, hCE⟩ := getLsbD_highHalf p
    unfold PsReg.ofWord
    dsimp only
    rw [low 0, low 1, low 2, low 3, low 4, low 5, low 6, low 7, low 8, low 9, low 10, low 11, low 12, low 13, low 14,
      low 15, (field 14 2).trans hrep, (field 10 4).trans hreg, (field 8 2).trans hrc, (bit 7).trans h23, (bit 6).trans h22,
      (bit 5).trans hT, (bit 4).trans hIE, (bit 3).trans hIO, (bit 2).trans hII, (bit 1).trans hTO, (bit 0).trans hCE]
    rfl

/-! ## The port registers -/

section
variable {α : Type} {cfg : Params} {v : Vector α 11} {f : α → Bool}

theorem portFlag_portWord (h : cfg.portBit.toList.Nodup) (i : Fin 11) :
    portFlag cfg (portWord cfg (v.toList.map f)) i = f (v.get i) := by
  refine (getLsbD_orBits_layout (v := cfg.portBit) le_rfl h (by simp) i).trans ?_
  simp [Vector.get_eq_getElem]

theorem getLsbD_portWord_unused {b : Fin 32} (h : ∀ i, cfg.portBit.get i ≠ b) (flags : List Bool) :
    (portWord cfg flags).getLsbD b.val = false := getLsbD_orBits_unused le_rfl h

end

/-! ## LDPR and STPR -/

section
variable {src des : Ref} {s s₁ s₂ s₃ s₄ : State} {l₁ l₂ : Loc}

theorem framedLook_of {ts td : OpType} {a : BitVec ts.bits} {b : BitVec td.bits} (hb : s.bus = [])
    (he : evalBoth ts td .look src des s = .ok (l₁, l₂) s₁) (ha : readLoc ts l₁ s₁ = .ok a s₂)
    (hd : readLoc td l₂ s₂ = .ok b s₃) : FramedLook src des s s₃ := by
  obtain ⟨rfl, hb₁⟩ := readLoc_same hb (by decide) he ha
  obtain rfl := readLoc_state hb₁ hd
  obtain ⟨hsp, hreg, -, -⟩ := evalBoth_parts (by decide) he
  have hframe := evalBoth_frame hb (by decide) he
  refine ⟨?_, hsp, hreg, ?_⟩
  · rw [hframe]
    exact ⟨rfl, rfl, rfl, rfl, rfl, rfl, rfl, rfl, rfl, rfl, rfl, rfl, rfl, rfl, rfl, rfl, rfl, rfl⟩
  · rw [hframe]

theorem exec_stpr (src des : Ref) (s : State) : exec (.stpr src des) s = runPlain (.stpr src des) (stprBody src des) s := rfl

theorem stprBody_eq_ok {n : Byte} {v next : Word} (he : evalBoth .b .w .write src des s = .ok (l₁, l₂) s₁)
    (hn : readLoc .b l₁ s₁ = .ok n s₂) (hv : s₂.procReg n.toNat = some v) (hw : writeLoc .w l₂ v s₂ = .ok () s₄) :
    stprBody src des next s =
      .ok { Done.plain next (popsStack src || popsStack des) with sig := .none }
        { s₄ with ps := s₂.ps.withLogic v.msb (v == 0) } := by
  refine (Flow.bind_of_ok _ he).trans ((Flow.bind_of_ok _ hn).trans ?_)
  dsimp only
  split
  · next v' hv' =>
    cases hv.symm.trans hv'
    exact settle_done hw
  · next hnone => cases hv.symm.trans hnone

end

theorem extractLsb'_mergeCr (old new : Word) :
    (mergeCr old new).extractLsb' 24 8 = old.extractLsb' 24 8 ∧ (mergeCr old new).extractLsb' 0 24 = new.extractLsb' 0 24 :=
  ⟨BitVec.extractLsb'_append_eq_left, BitVec.extractLsb'_append_eq_right⟩

/-- Settles O48. -/
theorem processorRegisters : Obligations.ProcessorRegisters := by
  refine ⟨fun src des s s₁ s₂ s₃ s₄ l₁ l₂ v n hr he hv hn hset hs hsp =>
      ⟨?_, fun hb => framedLook_of hb he hv hn⟩, fun s v => ⟨rfl, rfl, rfl, ⟨_, rfl, rfl, extractLsb'_mergeCr s.cr v⟩,
        rfl, rfl, rfl, rfl, ?_⟩, fun s => ⟨rfl, fun h => ⟨fun i => ?_, fun b hb w hw => ?_⟩⟩,
    fun src des s s₁ s₂ s₄ l₁ l₂ n v q hr he hn hv hw hq hs hsp => ⟨?_, fun hb => ?_⟩⟩
  · rw [exec_ldpr_loads hr he hv hn hset]
    have hsp' : (popsStack src || n == 0) = true → 2048 ≤ s₄.sp.toNat := fun h => hsp (by simpa [popsStack] using h)
    by_cases h1 : n = 1
    · rw [if_pos h1]
      refine finish_settled (d := { Done.plain _ _ with post := n != 1 }) (.inr ?_) (hs.onward _ _) rfl hsp'
      simp [h1]
    · rw [if_neg h1, finish_goesOn (i := .ldpr src des) hs.1 rfl rfl rfl (bne_iff_ne.2 h1)]
      have hsame := State.goesOn_same s₄ (.ldpr src des) s
      exact boundary_settled (hs.goesOn _ _) (completion_none rfl (by rw [hsame.1]; exact hsp'))
  · simp only [List.forall_mem_cons, List.not_mem_nil, false_imp_iff, implies_true, and_true]
    exact ⟨rfl, rfl, rfl, rfl, rfl⟩
  · exact ⟨portFlag_portWord h i, portFlag_portWord h i, portFlag_portWord h i, portFlag_portWord h i, portFlag_portWord h i⟩
  · simp only [List.mem_cons, List.not_mem_nil, or_false] at hw
    rcases hw with rfl | rfl | rfl | rfl | rfl
    · exact getLsbD_portWord_unused hb _
    · exact getLsbD_portWord_unused hb _
    · exact getLsbD_portWord_unused hb _
    · exact getLsbD_portWord_unused hb _
    · exact getLsbD_portWord_unused hb _
  · have hps : s₂.ps = s.ps := ((evalBoth_control (by decide) he).trans (readLoc_control hn)).ps
    rw [exec_stpr, runPlain_runs hr, stprBody_eq_ok he hn hv hw, hps, hq]
    subst hq
    exact finish_onward hs (fun h => hsp (by simpa [popsStack] using h)) rfl
  · obtain ⟨rfl, -⟩ := readLoc_same hb (by decide) he hn
    exact framed_of hb (by decide) he hw

end Sys2Proof.Machine

/-!
Taking an interrupt (R500) and returning from it (R420, R503): what the two pushes and the vector leave, and that RETI undoes
them.
-/
namespace Sys2Proof.Machine

open Sys2Proof

/-- The state of an entry between its pushes and its vector: PS and then the address are on the stack. -/
def State.saved (a : Word) (s : State) : State := (s.pushed (s.ps.toWord s.cfg)).pushed a

theorem entryState_eq (n : Nat) (a : Word) (s : State) :
    entryState n a s = (s.saved a).handling (vectorVA (s.saved a).mem n) (vectorNPS (s.saved a).mem n) := rfl

theorem saved_sp (a : Word) (s : State) : (s.saved a).sp = s.sp - 8 := by
  show s.sp - 4 - 4 = s.sp - 8
  bv_omega

section
variable {s t : State} {a : Word} {n : Nat}

theorem toNat_sub_eight (h : 8 ≤ s.sp.toNat) : (s.sp - 8).toNat = s.sp.toNat - 8 ∧ (s.sp - 8 + 4).toNat = s.sp.toNat - 4 := by
  bv_omega

/-- What an entry leaves on the stack, and what it leaves of the rest of memory. -/
theorem saved_reads (hw : s.mem.wf = true) (h : 8 ≤ s.sp.toNat) :
    (s.saved a).mem.readN (s.sp - 8).toNat 4 = a.toNat ∧
      (s.saved a).mem.readN (s.sp - 8 + 4).toNat 4 = (s.ps.toWord s.cfg).toNat ∧
      ∀ x, x < s.sp.toNat - 8 ∨ s.sp.toNat ≤ x → (s.saved a).mem.read x = s.mem.read x := by
  obtain ⟨h8, h4⟩ := toNat_sub_eight h
  have hsp₁ : (s.pushed (s.ps.toWord s.cfg)).sp.toNat = s.sp.toNat - 4 := by
    show (s.sp - 4).toNat = s.sp.toNat - 4
    bv_omega
  have hsp₂ : (s.saved a).sp.toNat = s.sp.toNat - 8 := by rw [saved_sp, h8]
  obtain ⟨hps, hrest₁⟩ := pushed_reads hw (s.ps.toWord s.cfg)
  obtain ⟨ha, hrest₂⟩ := pushed_reads (s := s.pushed (s.ps.toWord s.cfg)) (Memory.wf_writeN _ _ _ hw) a
  change (s.saved a).mem.readN (s.saved a).sp.toNat 4 = a.toNat at ha
  change ∀ x, x < (s.saved a).sp.toNat ∨ (s.saved a).sp.toNat + 4 ≤ x → (s.saved a).mem.read x = _ at hrest₂
  rw [hsp₂] at ha hrest₂
  rw [hsp₁] at hps hrest₁
  refine ⟨by rw [h8]; exact ha, ?_, fun x hx => ?_⟩
  · rw [h4, Memory.readN_congr 4 (m' := (s.pushed (s.ps.toWord s.cfg)).mem) _ fun i hi => hrest₂ _ (.inr (by omega))]
    exact hps
  · exact (hrest₂ x (by omega)).trans (hrest₁ x (by omega))

/-- The state an entry leaves: SP, memory and the instruction buffer are the only ones its pushes touch. -/
theorem exists_entryState (n : Nat) (hw : s.mem.wf = true) (h : 8 ≤ s.sp.toNat) :
    ∃ m f, entryState n a s =
        ({ s with sp := s.sp - 8, mem := m, fetch := f } : State).handling (vectorVA m n) (vectorNPS m n) ∧
      m.readN (s.sp - 8).toNat 4 = a.toNat ∧ m.readN (s.sp - 8 + 4).toNat 4 = (s.ps.toWord s.cfg).toNat ∧
      ∀ x, x < s.sp.toNat - 8 ∨ s.sp.toNat ≤ x → m.read x = s.mem.read x := by
  refine ⟨(s.saved a).mem, (s.saved a).fetch, ?_, saved_reads hw h⟩
  rw [← saved_sp a s]
  rfl

theorem entryFits_iff : entryFits s n = true ↔ 8 ≤ s.sp.toNat ∧ s.sp.toNat ≤ s.cfg.memSize ∧ 8 * n + 8 ≤ s.cfg.memSize := by
  simp [entryFits, and_assoc]

end

/-- Settles O50. -/
theorem entrySaves : Obligations.EntrySaves := by
  refine ⟨fun n a s t hn hb hw h => ?_, fun n a s hn hb h8 hsp hv => ?_⟩
  · obtain ⟨hfit, rfl⟩ := (enter_eq_ok hb hn).1 h
    have h8 := (entryFits_iff.1 hfit).1
    obtain ⟨m, f, he, ha, hps, hrest⟩ := exists_entryState (a := a) n hw h8
    rw [he]
    refine ⟨rfl, ha, hps, rfl, rfl, rfl, rfl, fun x hx => hrest x ?_, rfl, rfl, rfl, rfl, rfl, rfl, rfl, rfl, rfl, rfl, rfl,
      rfl, rfl, rfl, rfl, rfl, rfl⟩
    have := (toNat_sub_eight h8).1
    change x < (s.sp - 8).toNat ∨ (s.sp - 8).toNat + 8 ≤ x at hx
    omega
  · exact ⟨_, (enter_eq_ok hb hn).2 ⟨entryFits_iff.2 ⟨h8, hsp, hv⟩, rfl⟩⟩

/-- Settles O51. -/
theorem returnRestores : Obligations.ReturnRestores := by
  intro n a s t hn hps hw h hrep hs hsp
  obtain ⟨hfit, rfl⟩ := (enter_eq_ok hs.1 hn).1 h
  obtain ⟨h8, hmem, -⟩ := entryFits_iff.1 hfit
  obtain ⟨m, f, he, ha, hp, hrest⟩ := exists_entryState (a := a) n hw h8
  rw [he] at hrep ⊢
  generalize ht : ({ s with sp := s.sp - 8, mem := m, fetch := f } : State).handling (vectorVA m n) (vectorNPS m n) = t
    at hrep ⊢
  have hret : returnFromInterrupt t = .ok a { t with sp := s.sp, ps := s.ps, ueActive := false } := by
    obtain ⟨e8, e4⟩ := toNat_sub_eight h8
    have hlt := s.sp.isLt
    have htsp : t.sp = s.sp - 8 := by rw [← ht]; rfl
    have htm : t.mem = m := by rw [← ht]; rfl
    have htc : t.cfg = s.cfg := by rw [← ht]; rfl
    have htb : t.bus = [] := by rw [← ht]; exact hs.1
    refine (returnFromInterrupt_eq_ok htb).2 ⟨?_, ?_, ?_, ?_⟩
    · rw [htsp, htc, e8]; exact checkAccess_present (by omega) (by omega)
    · rw [htsp, htc, e4]; exact checkAccess_present (by omega) (by omega)
    · rw [htsp, htm, ha, BitVec.ofNat_toNat, BitVec.setWidth_eq]
    · rw [htsp, htm, htc, hp, BitVec.ofNat_toNat, BitVec.setWidth_eq, (statusImage s.cfg hps).2,
        show s.sp - 8 + 4 + 4 = s.sp by bv_omega]
  subst ht
  exact ⟨_, exec_reti_settled (.inl hrep) hret (hs.congr rfl rfl rfl rfl rfl rfl rfl rfl rfl rfl) hsp, rfl, rfl, rfl, rfl, rfl,
    hrest⟩

end Sys2Proof.Machine

/-!
The end of an instruction before anything asynchronous (R493, R498, R505): Stack Overflow where it left SP below 2048, and
trace where T is set.
-/
namespace Sys2Proof.Machine

open Sys2Proof

/-! ## Stack Overflow after a result -/

/-- The end of an instruction that wrote SP and left it below 2048: nothing it signals comes before (R498 item 2). -/
theorem finish_stackOverflow {i : Instr} {s s₂ : State} {q : PsReg} {sig : Signal} (hb : s₂.bus = [])
    (hsp : s₂.sp.toNat < 2048) :
    finish s.counting s.pc (.ok { Done.plain (pcNext i s) true with sig := sig } { s₂ with ps := q }) =
      takes 12 s.pc ((s₂.withPs q).goesOn i s) := by
  have hsame := (State.goesOn_same (s₂.withPs q) i s).1
  rw [show ({ s₂ with ps := q } : State) = s₂.withPs q from rfl,
    finish_goesOn (i := i) (t := s₂.withPs q) hb rfl rfl rfl rfl]
  exact boundary_stackOverflow rfl (by rw [hsame]; exact hsp)

section
variable {ts td t : OpType} {mk : Ref → Ref → Instr}

theorem ModifyOverflows.of {value : State → BitVec ts.bits → BitVec td.bits → BitVec td.bits}
    {status : State → BitVec ts.bits → BitVec td.bits → PsReg}
    (op : State → BitVec ts.bits → BitVec td.bits → Calc td.bits)
    (hexec : ∀ src des s, exec (mk src des) s = runPlain (mk src des) (modifyBody ts td (op s) src des) s)
    (hop : ∀ s a b, ∃ sig, op s a b = .done (value s a b) (status s a b) sig 0) :
    ModifyOverflows ts td mk value status := by
  intro des s s₁ s₂ s₃ s₄ l₁ l₂ a b hr he ha hb hw hbus hsp
  obtain ⟨sig, ho⟩ := hop s a b
  rw [hexec, runPlain_runs hr]
  unfold modifyBody
  rw [Flow.bind_of_ok _ he]
  dsimp only
  rw [Flow.bind_of_ok _ ha, Flow.bind_of_ok _ hb, ho, settle_done (u := ()) (t := s₄) hw]
  exact finish_stackOverflow hbus hsp

theorem WriteOverflows.of {value : State → BitVec ts.bits → BitVec td.bits} {status : State → BitVec ts.bits → PsReg}
    (op : State → BitVec ts.bits → Calc td.bits)
    (hexec : ∀ src des s, exec (mk src des) s = runPlain (mk src des) (writeBody ts td (op s) src des) s)
    (hop : ∀ s a, ∃ sig, op s a = .done (value s a) (status s a) sig 0) : WriteOverflows ts td mk value status := by
  intro src des s s₁ s₂ s₄ l₁ l₂ a hr hstk he ha hw hbus hsp
  have hwrote : (popsStack src || popsStack des) = true := by simpa [popsStack] using hstk
  obtain ⟨sig, ho⟩ := hop s a
  rw [hexec, runPlain_runs hr]
  unfold writeBody
  rw [Flow.bind_of_ok _ he]
  dsimp only
  rw [Flow.bind_of_ok _ ha, ho, settle_done (u := ()) (t := s₄) hw, hwrote]
  exact finish_stackOverflow hbus hsp

theorem CompareOverflows.of {status : State → BitVec t.bits → BitVec t.bits → PsReg}
    (hexec : ∀ src des s, exec (mk src des) s = runPlain (mk src des) (flagsBody t (status s) src des) s) :
    CompareOverflows t mk status := by
  intro des s s₁ s₂ s₃ l₁ l₂ a b hr he ha hb hbus hsp
  rw [hexec, runPlain_runs hr]
  unfold flagsBody lookBody
  rw [Flow.bind_of_ok _ he]
  dsimp only
  rw [Flow.bind_of_ok _ ha, Flow.bind_of_ok _ hb]
  exact finish_stackOverflow (sig := .none) hbus hsp

end

theorem exec_cmp : ∀ p ∈ [(OpType.b, Instr.cmpb), (.h, .cmph), (.w, .cmpw)], ∀ src des s,
    exec (p.2 src des) s = runPlain (p.2 src des) (flagsBody p.1 (compareFlags s.ps) src des) s :=
  forall_mem_triple exec_cmpb exec_cmph exec_cmpw

/-! ## What is left to the selection -/

section
variable {s s₁ s₂ s₃ : State} {src : Ref} {t : Word}

theorem finish_jump_boundary {w : Word} (hb : s.bus = []) :
    finish none w (.ok (Done.jump t true) s) = boundary (Done.jump t true) w (s.jumpTo w t) :=
  (finish_ok hb).trans (by rw [advance_jumpTo rfl rfl]; rfl)

theorem exec_call_boundary (hr : s.ps.rep = 0) (he : evalTarget s.sp (s.pc + 2) src s = .ok t s₁)
    (hp : push4 (pcNext (.call src) s) s₁ = .ok () s₂) (hb : s₂.bus = []) :
    exec (.call src) s = boundary (Done.jump t true) s.pc (s₂.jumpTo s.pc t) := by
  have hps : s₂.ps = s.ps := (push4_processor hp).control.ps.trans (evalTarget_control he).ps
  rw [exec_call, runBranch_once hr, callBody_eq_ok he hp, clearRep_of_once (by rw [hps]; exact hr)]
  exact finish_jump_boundary hb

theorem exec_ret_boundary (hr : s.ps.rep = 0) (hp : pop4 s = .ok t s₁) (hb : s₁.bus = []) :
    exec .ret s = boundary (Done.jump t true) s.pc (s₁.jumpTo s.pc t) := by
  rw [exec_ret, runBranch_once hr, retBody_eq_ok hp,
    clearRep_of_once (by rw [(pop4_processor hp).control.ps]; exact hr)]
  exact finish_jump_boundary hb

theorem exec_retp_boundary {l : Loc} {k : Word} (hr : s.ps.rep = 0)
    (he : evalRef .src 4 s.sp (s.pc + 2) src s = .ok l s₁) (hk : readLoc .w l s₁ = .ok k s₂) (hp : pop4 s₂ = .ok t s₃)
    (hb : s₃.bus = []) :
    exec (.retp src) s = boundary (Done.jump t true) s.pc ({ s₃ with sp := s₃.sp + k }.jumpTo s.pc t) := by
  have hps : s₃.ps = s.ps :=
    (pop4_processor hp).control.ps.trans ((readLoc_control hk).ps.trans (evalRef_control he).ps)
  rw [exec_retp, runBranch_once hr, retpBody_eq_ok he hk hp,
    clearRep_of_once (s := { s₃ with sp := s₃.sp + k }) (by rw [hps]; exact hr)]
  exact finish_jump_boundary hb

theorem exec_final_boundary {i : Instr} {act : State → State}
    (hexec : exec i s = runPlain i (fun next s => .ok (Done.final next) (act s)) s) (hr : s.ps.rep = 0) (hb : (act s).bus = []) :
    exec i s = boundary (Done.final (pcNext i s)) s.pc ((act s).onward s.pc (pcNext i s)) := by
  rw [hexec, runPlain_once hr]
  exact (finish_ok hb).trans (by rw [advance_onward rfl rfl]; rfl)

/-! ## Trace -/

theorem exec_simple_trace {i : Instr} {act : State → State} (hi : i.parts.refs = [])
    (hexec : exec i s = runPlain i (simpleBody act) s) (hr : s.ps.rep = 0) (hb : (act s).bus = [])
    (hT : (act s).ps.eT = true) : exec i s = takes 1 (s.pc + 1) ((act s).onward s.pc (s.pc + 1)) := by
  have hnext : pcNext i s = s.pc + 1 := by simp [pcNext, Instr.length, hi]
  rw [exec_simple_boundary hexec hr hb, hnext]
  exact boundary_trace (completion_none rfl fun h => by cases h) hT rfl

theorem exec_final_trace {i : Instr} {act : State → State} (hi : i.parts.refs = [])
    (hexec : exec i s = runPlain i (fun next s => .ok (Done.final next) (act s)) s) (hr : s.ps.rep = 0)
    (hb : (act s).bus = []) (hT : (act s).ps.eT = true) :
    exec i s = takes 1 (s.pc + 1) ((act s).onward s.pc (s.pc + 1)) := by
  have hnext : pcNext i s = s.pc + 1 := by simp [pcNext, Instr.length, hi]
  rw [exec_final_boundary hexec hr hb, hnext]
  exact boundary_trace (completion_none rfl fun h => by cases h) hT rfl

theorem boundary_jump_trace {w : Word} (hT : s.ps.eT = true) (hsp : 2048 ≤ s.sp.toNat) :
    boundary (Done.jump t true) w (s.jumpTo w t) = takes 1 t (s.jumpTo w t) :=
  boundary_trace (s := s.jumpTo w t) (completion_none rfl fun _ => hsp) hT rfl

end

theorem simpleInstrs_same : ∀ p ∈ simpleInstrs, ∀ s, (p.2 s).bus = s.bus ∧ (p.2 s).ps.eT = s.ps.eT := by
  simp [simpleInstrs, State.withPs]

/-- WAIT and RSET (R421, R424), which no repeat post-step follows. -/
def finalInstrs : List (Instr × (State → State)) := [(.wait, fun s => { s with idle := true }), (.rset, State.rset)]

theorem exec_finalInstrs : ∀ p ∈ finalInstrs,
    p.1.parts.refs = [] ∧ ∀ s, exec p.1 s = runPlain p.1 (fun next s => .ok (Done.final next) (p.2 s)) s :=
  forall_mem_pair ⟨rfl, exec_wait⟩ ⟨rfl, exec_rset⟩

theorem finalInstrs_same : ∀ p ∈ finalInstrs, ∀ s, (p.2 s).bus = s.bus ∧ (p.2 s).ps.eT = s.ps.eT :=
  forall_mem_pair (fun _ => ⟨rfl, rfl⟩) (fun _ => ⟨rfl, rfl⟩)

/-- Settles O53. -/
theorem endOfInstruction : Obligations.EndOfInstruction := by
  refine ⟨⟨fun src s s₁ s₂ t hr he hp hb hsp => ?_, fun s s₁ t hr hb hsp => ⟨fun hp => ?_, fun hret => ?_⟩,
      fun src s s₁ s₂ s₃ l k t hr he hk hp hb hsp => ?_, fun src des s s₁ s₂ s₃ l₁ l₂ v hr he hv hn hb hsp => ?_,
      fun p hp => WriteOverflows.of _ (exec_mov p hp) fun _ _ => ⟨_, rfl⟩,
      fun p hp => WriteOverflows.of _ (exec_not p hp) fun _ _ => ⟨_, rfl⟩,
      fun p hp => ModifyOverflows.of _ (exec_and p hp) fun _ _ _ => ⟨_, rfl⟩,
      fun p hp => ModifyOverflows.of _ (exec_or p hp) fun _ _ _ => ⟨_, rfl⟩,
      fun p hp => ModifyOverflows.of _ (exec_xor p hp) fun _ _ _ => ⟨_, rfl⟩,
      fun p hp => ModifyOverflows.of _ (exec_add p hp) fun s a b => ⟨_, by rw [addCore_false]; rfl⟩,
      fun p hp => CompareOverflows.of (exec_bit p hp), fun p hp => CompareOverflows.of (exec_cmp p hp)⟩,
    ?simple, fun p hp src des s s₁ s₂ s₄ l₁ l₂ a hr he ha hw hb hT hsp => ?move,
    fun p hp src s s₁ t hr he hU hb hT => ?branch, fun src s s₁ s₂ t hr he hp hb hT hsp => ?_,
    fun s s₁ t hr hp hb hT hsp => ?_, fun s s₁ a hr hret hb hT hsp => ?_⟩
  · rw [exec_call_boundary hr he hp hb]
    exact boundary_stackOverflow rfl hsp
  · rw [exec_ret_boundary hr hp hb]
    exact boundary_stackOverflow rfl hsp
  · rw [exec_reti_boundary (.inl hr) hret hb]
    exact boundary_stackOverflow rfl hsp
  · rw [exec_retp_boundary hr he hk hp hb]
    exact boundary_stackOverflow rfl hsp
  · have hset : s₃.setProcReg (0 : Byte).toNat v = some { s₃ with sp := v } := rfl
    have hwrote : (popsStack src || (0 : Byte) == 0) = true := Bool.or_true _
    rw [exec_ldpr_loads (.inl hr) he hv hn hset,
      finish_goesOn (t := { s₃ with sp := v }) (i := .ldpr src des) hb rfl rfl rfl rfl, State.goesOn, if_pos hr]
    exact boundary_stackOverflow hwrote hsp
  case simple =>
    refine (List.forall_mem_append (l₁ := simpleInstrs)).2 ⟨fun p hp s hr hb hT => ?_, fun p hp s hr hb hT => ?_⟩
    · obtain ⟨hrefs, hexec⟩ := exec_simpleInstrs p hp
      obtain ⟨hbus, htrace⟩ := simpleInstrs_same p hp s
      exact exec_simple_trace hrefs (hexec s) hr (hbus.trans hb) (htrace.trans hT)
    · obtain ⟨hrefs, hexec⟩ := exec_finalInstrs p hp
      obtain ⟨hbus, htrace⟩ := finalInstrs_same p hp s
      exact exec_final_trace hrefs (hexec s) hr (hbus.trans hb) (htrace.trans hT)
  case move =>
    have hps : s₄.ps = s.ps :=
      (((evalBoth_control (by decide) he).trans (readLoc_control ha)).trans (writeLoc_control hw)).ps
    have hbody : writeBody p.1 p.1 (moveCalc s.ps) src des (pcNext (p.2 src des) s) s =
        .ok { Done.plain (pcNext (p.2 src des) s) (popsStack src || popsStack des) with sig := .none } (s₄.withPs s.ps) :=
      (writeBody_of_evalBoth _ he).trans ((Flow.bind_of_ok _ ha).trans (settle_done hw))
    have hsp' : (popsStack src || popsStack des) = true → 2048 ≤ s₄.sp.toNat := fun h => hsp (by simpa [popsStack] using h)
    rw [exec_mov p hp, runPlain_once hr, hbody, withPs_of_eq hps]
    generalize hd : ({ Done.plain (pcNext (p.2 src des) s) (popsStack src || popsStack des) with sig := .none } : Done) = d
    have hnext : d.next = pcNext (p.2 src des) s := by rw [← hd]; rfl
    have hentered : d.entered = false := by rw [← hd]; rfl
    have hnone : completion d (s₄.onward s.pc d.next) = none := completion_none (by rw [← hd]) (by rw [← hd]; exact hsp')
    refine (finish_ok hb).trans ?_
    rw [advance_onward (by rw [← hd]; rfl) hentered, ← hnext]
    exact boundary_trace hnone (by rw [← hps] at hT; exact hT) hentered
  case branch =>
    have hps : s₁.ps = s.ps := (evalTarget_control he).ps
    rw [exec_branch p hp, runBranch_once hr, branchBody_of_target _ _ _ he, if_neg (by rw [hU]; decide), finish_branch _ hb]
    split
    · exact boundary_trace (completion_none (d := Done.jump t false) rfl fun h => by cases h) (by rw [← hps] at hT; exact hT) rfl
    · exact boundary_trace (completion_none (d := Done.plain _ false) rfl fun h => by cases h) (by rw [← hps] at hT; exact hT) rfl
  · have hps : s₂.ps = s.ps := (push4_processor hp).control.ps.trans (evalTarget_control he).ps
    rw [exec_call_boundary hr he hp hb]
    exact boundary_jump_trace (by rw [hps]; exact hT) hsp
  · rw [exec_ret_boundary hr hp hb]
    exact boundary_jump_trace (by rw [(pop4_processor hp).control.ps]; exact hT) hsp
  · rw [exec_reti_boundary (.inl hr) hret hb]
    exact boundary_trace (s := s₁.jumpTo s.pc a) (completion_none rfl fun _ => hsp) hT rfl

end Sys2Proof.Machine

/-!
LPTR, LCNT, BPTR and BCNT (R443 to R446): the ports by number (R440) and by mask (R445), and the loads of the channel
registers.
-/
namespace Sys2Proof.Machine

open Sys2Proof

/-! ## Instructions that read both references and act on the state -/

section
variable {ts td : OpType} {i : Instr} {act : BitVec ts.bits → BitVec td.bits → Done → State → Flow Done} {src des : Ref}
  {s s₁ s₂ s₃ u : State} {l₁ l₂ : Loc} {a : BitVec ts.bits} {b : BitVec td.bits}

theorem exec_look_reads (hexec : exec i s = runPlain i (lookBody ts td act src des) s) (hr : Runs i s)
    (he : evalBoth ts td .look src des s = .ok (l₁, l₂) s₁) (ha : readLoc ts l₁ s₁ = .ok a s₂)
    (hb : readLoc td l₂ s₂ = .ok b s₃) :
    exec i s = finish s.counting s.pc (act a b (Done.plain (pcNext i s) (popsStack src)) s₃) := by
  rw [hexec, runPlain_runs hr]
  exact congrArg (finish _ _) ((lookBody_of_evalBoth _ he).trans ((Flow.bind_of_ok _ ha).trans (Flow.bind_of_ok _ hb)))

theorem exec_look_settled (hexec : exec i s = runPlain i (lookBody ts td act src des) s) (hr : Runs i s)
    (he : evalBoth ts td .look src des s = .ok (l₁, l₂) s₁) (ha : readLoc ts l₁ s₁ = .ok a s₂)
    (hb : readLoc td l₂ s₂ = .ok b s₃)
    (hact : act a b (Done.plain (pcNext i s) (popsStack src)) s₃ = .ok (Done.plain (pcNext i s) (popsStack src)) u)
    (hs : u.Settled) (hsp : src = .stk → 2048 ≤ u.sp.toNat) : exec i s = .next (u.goesOn i s) := by
  have hsp' : popsStack src = true → 2048 ≤ u.sp.toNat := fun h => hsp (beq_iff_eq.1 h)
  rw [exec_look_reads hexec hr he ha hb, hact, finish_goesOn (i := i) hs.1 rfl rfl rfl rfl]
  exact boundary_settled (hs.goesOn _ _) (completion_none rfl (by rw [(State.goesOn_same u i s).1]; exact hsp'))

theorem exec_look_refused {r : Refusal} (hexec : exec i s = runPlain i (lookBody ts td act src des) s) (hr : Runs i s)
    (he : evalBoth ts td .look src des s = .ok (l₁, l₂) s₁) (ha : readLoc ts l₁ s₁ = .ok a s₂)
    (hb : readLoc td l₂ s₂ = .ok b s₃)
    (hact : act a b (Done.plain (pcNext i s) (popsStack src)) s₃ = .refuse r) : exec i s = .refused r := by
  rw [exec_look_reads hexec hr he ha hb, hact]
  rfl

end

theorem exec_lptr (src des : Ref) (s : State) :
    exec (.lptr src des) s = runPlain (.lptr src des) (lookBody .w .w lptrAct src des) s := rfl

theorem exec_lcnt (src des : Ref) (s : State) :
    exec (.lcnt src des) s = runPlain (.lcnt src des) (lookBody .w .b lcntAct src des) s := rfl

theorem exec_bptr (src des : Ref) (s : State) :
    exec (.bptr src des) s = runPlain (.bptr src des) (lookBody .w .w bptrAct src des) s := rfl

theorem exec_bcnt (src des : Ref) (s : State) :
    exec (.bcnt src des) s = runPlain (.bcnt src des) (lookBody .w .w bcntAct src des) s := rfl

/-! ## Ports by number -/

theorem inIndex_eq_some {p : Nat} {i : Fin 11} : inIndex p = some i ↔ p = if i = 10 then 31 else i.val := by
  unfold inIndex
  split_ifs <;> simp only [Option.some.injEq, Fin.ext_iff, false_iff] <;> omega

theorem outIndex_eq_some {p : Nat} {i : Fin 11} : outIndex p = some i ↔ p = if i = 10 then 63 else 32 + i.val := by
  unfold outIndex
  split
  · rw [inIndex_eq_some]
    split_ifs <;> omega
  · simp only [reduceCtorEq, false_iff]
    split_ifs <;> omega

theorem inIndex_eq_none {p : Nat} : inIndex p = none ↔ 10 ≤ p ∧ p ≠ 31 := by
  unfold inIndex
  split_ifs <;> simp <;> omega

theorem outIndex_eq_none {p : Nat} : outIndex p = none ↔ p < 32 ∨ (42 ≤ p ∧ p ≠ 63) := by
  unfold outIndex
  split
  · rw [inIndex_eq_none]; omega
  · simp; omega

/-- No number is that of an input and of an output. -/
theorem inIndex_of_outIndex {p : Nat} {i : Fin 11} (h : outIndex p = some i) : inIndex p = none := by
  rw [outIndex_eq_some] at h
  rw [inIndex_eq_none]
  split_ifs at h <;> omega

/-! ## The acts -/

section
variable {a p : Word} {n : Word} {q : Byte} {d : Done} {s : State} {i : Fin 11}

theorem lptrAct_in (h : inIndex p.toNat = some i) :
    lptrAct a p d s = .ok d (s.setIn i { s.inPort i with address := evenWord a }) := by
  unfold lptrAct
  rw [h]

theorem lptrAct_out (h : outIndex p.toNat = some i) :
    lptrAct a p d s =
      if (s.outPort i).inBroadcast then .refuse .broadcastMisuse
      else .ok d (s.setOut i { s.outPort i with address := evenWord a }) := by
  unfold lptrAct
  rw [inIndex_of_outIndex h, h]

theorem lptrAct_none (hi : inIndex p.toNat = none) (ho : outIndex p.toNat = none) :
    lptrAct a p d s = .refuse (.portNumber p.toNat) := by
  unfold lptrAct
  rw [hi, ho]

theorem lcntAct_in (h : inIndex q.toNat = some i) :
    lcntAct n q d s = .ok d (s.setIn i { s.inPort i with count := evenWord n, perr := false, ovr := false }) := by
  unfold lcntAct
  rw [h]

theorem lcntAct_out (h : outIndex q.toNat = some i) :
    lcntAct n q d s =
      if (s.outPort i).inBroadcast then .refuse .broadcastMisuse
      else .ok d (s.setOut i { s.outPort i with count := evenWord n, bcast := false }) := by
  unfold lcntAct
  rw [inIndex_of_outIndex h, h]

theorem lcntAct_none (hi : inIndex q.toNat = none) (ho : outIndex q.toNat = none) :
    lcntAct n q d s = .refuse (.portNumber q.toNat) := by
  unfold lcntAct
  rw [hi, ho]

end

/-- Settles O55. -/
theorem channelLoads : Obligations.ChannelLoads := by
  refine ⟨fun p => ⟨fun i => inIndex_eq_some, fun i => outIndex_eq_some, ?_⟩,
    fun src des s s₁ s₂ s₃ u l₁ l₂ a p hr he ha hp hu hs hsp => ⟨?_, fun hb => framedLook_of hb he ha hp⟩,
    fun src des s s₁ s₂ s₃ u l₁ l₂ n p hr he hn hp hu hs hsp => ⟨?_, fun hb => framedLook_of hb he hn hp⟩⟩
  · rw [inIndex_eq_none, outIndex_eq_none]
    omega
  · refine exec_look_settled (exec_lptr src des s) hr he ha hp ?_ hs hsp
    rcases hu with ⟨i, hi, rfl⟩ | ⟨i, hi, hin, rfl⟩
    · exact lptrAct_in hi
    · exact (lptrAct_out hi).trans (if_neg (by rw [hin]; decide))
  · refine exec_look_settled (exec_lcnt src des s) hr he hn hp ?_ hs hsp
    rcases hu with ⟨i, hi, rfl⟩ | ⟨i, hi, hin, rfl⟩
    · exact lcntAct_in hi
    · exact (lcntAct_out hi).trans (if_neg (by rw [hin]; decide))

/-! ## Ports by mask -/

section
variable {cfg : Params} {m : Word}

theorem inMask_default (h : cfg.portBit = #v[0, 1, 2, 3, 4, 5, 6, 7, 8, 9, 31]) (i : Fin 11) :
    inMask cfg m i = m.getLsbD (if i = 10 then 31 else i.val) := by
  have hbit : ∀ i : Fin 11, ((#v[0, 1, 2, 3, 4, 5, 6, 7, 8, 9, 31] : Vector (Fin 32) 11).get i).val =
      if i = 10 then 31 else i.val := by decide
  unfold inMask portFlag
  rw [h, hbit]

/-- A mask is bad where it has a bit that the layout gives to no port. -/
theorem badMask_iff (hn : cfg.portBit.toList.Nodup) :
    badMask cfg m = true ↔ ∃ b : Fin 32, (∀ i, cfg.portBit.get i ≠ b) ∧ m.getLsbD b.val = true := by
  have hused : ∀ i, (portWord cfg ((List.finRange 11).map (inMask cfg m))).getLsbD (cfg.portBit.get i).val = inMask cfg m i := by
    intro i
    refine (getLsbD_orBits_layout (v := cfg.portBit) le_rfl hn (by simp) i).trans ?_
    simp
  rw [badMask, bne_iff_ne]
  constructor
  · intro hne
    by_contra hall
    push Not at hall
    refine hne (BitVec.eq_of_getLsbD_eq fun j hj => ?_)
    by_cases hj' : ∃ i, cfg.portBit.get i = ⟨j, hj⟩
    · obtain ⟨i, hi⟩ := hj'
      have := hused i
      rw [inMask, portFlag, hi] at this
      exact this.symm
    · push Not at hj'
      rw [getLsbD_portWord_unused (b := ⟨j, hj⟩) hj']
      simpa using hall ⟨j, hj⟩ hj'
  · rintro ⟨b, hb, hset⟩ heq
    rw [heq, getLsbD_portWord_unused hb] at hset
    cases hset

theorem badMask_default (h : cfg.portBit = #v[0, 1, 2, 3, 4, 5, 6, 7, 8, 9, 31]) :
    badMask cfg m = true ↔ ∃ b, 10 ≤ b ∧ b ≤ 30 ∧ m.getLsbD b = true := by
  have hfree : ∀ b : Fin 32, (∀ i, (#v[0, 1, 2, 3, 4, 5, 6, 7, 8, 9, 31] : Vector (Fin 32) 11).get i ≠ b) ↔
      10 ≤ b.val ∧ b.val ≤ 30 := by decide
  rw [badMask_iff (by rw [h]; decide), h]
  constructor
  · rintro ⟨b, hb, hset⟩
    obtain ⟨hlo, hhi⟩ := (hfree b).1 hb
    exact ⟨b.val, hlo, hhi, hset⟩
  · rintro ⟨b, hlo, hhi, hset⟩
    exact ⟨⟨b, by omega⟩, (hfree ⟨b, by omega⟩).2 ⟨hlo, hhi⟩, hset⟩

end

section
variable {a m n : Word} {d : Done} {s : State}

theorem bptrAct_eq_ok (hm : badMask s.cfg m = false) (hr : maskReady s m = true) :
    bptrAct a m d s =
      .ok d (s.mapOut fun i p => if inMask s.cfg m i then { p with address := evenWord a } else p) := by
  unfold bptrAct
  rw [hm, hr]
  rfl

theorem bcntAct_eq_ok (hm : badMask s.cfg m = false) (hb : broadcasting s = false) (hr : maskReady s m = true)
    (ha : maskAligned s m = true) :
    bcntAct n m d s =
      .ok d (s.mapOut fun i p =>
        { p with
            count := if inMask s.cfg m i then evenWord n else p.count
            bcast := inMask s.cfg m i && evenWord n != 0 }) := by
  unfold bcntAct
  rw [hm, hb, hr, ha]
  refine congrArg (fun f => Flow.ok d (s.mapOut f)) ?_
  funext i p
  cases inMask s.cfg m i <;> rfl

end

/-- Settles O56. -/
theorem broadcastLoads : Obligations.BroadcastLoads := by
  refine ⟨fun cfg m h => ⟨inMask_default h, badMask_default h⟩,
    fun src des s s₁ s₂ s₃ u l₁ l₂ a m hr he ha hm hbad hready hu hs hsp => ⟨?_, fun hb => framedLook_of hb he ha hm⟩,
    fun src des s s₁ s₂ s₃ u l₁ l₂ n m hr he hn hm hbad hbc hready halign hu hs hsp =>
      ⟨?_, fun hb => framedLook_of hb he hn hm⟩⟩
  · have hcfg : s₃.cfg = s.cfg :=
      (((evalBoth_control (by decide) he).trans (readLoc_control ha)).trans (readLoc_control hm)).cfg
    rw [← hcfg] at hbad hu
    refine exec_look_settled (exec_bptr src des s) hr he ha hm ?_ hs hsp
    rw [hu]
    exact bptrAct_eq_ok hbad hready
  · have hcfg : s₃.cfg = s.cfg :=
      (((evalBoth_control (by decide) he).trans (readLoc_control hn)).trans (readLoc_control hm)).cfg
    rw [← hcfg] at hbad hu
    refine exec_look_settled (exec_bcnt src des s) hr he hn hm ?_ hs hsp
    rw [hu]
    exact bcntAct_eq_ok hbad hbc hready halign

end Sys2Proof.Machine

/-!
The cases the spec has a model refuse (93_implementation_defined.md), and accesses past the memory there is (R80), which stop
with the fault unpopulated.
-/
namespace Sys2Proof.Machine

open Sys2Proof

theorem Flow.bind_of_fault {α β : Type} {x : Flow α} (f : α → State → Flow β) {e : Fault} (h : x = .fault e) :
    x.bind f = .fault e := by rw [h]; rfl

theorem Flow.bind_of_refuse {α β : Type} {x : Flow α} (f : α → State → Flow β) {r : Refusal} (h : x = .refuse r) :
    x.bind f = .refuse r := by rw [h]; rfl

section
variable {i : Instr} {s : State}

theorem runPlain_refuse {body : Word → State → Flow Done} {r : Refusal} (hr : s.ps.rep = 0)
    (h : body (pcNext i s) s = .refuse r) : runPlain i body s = .refused r := by
  rw [runPlain_once hr, h]; rfl

theorem runPlain_fault {body : Word → State → Flow Done} {f : Fault} (hr : s.ps.rep = 0)
    (h : body (pcNext i s) s = .fault f) : runPlain i body s = .fault f := by
  rw [runPlain_once hr, h]; rfl

theorem runBranch_fault {body : Word → Word → State → Flow Done} {f : Fault} (hr : s.ps.rep = 0)
    (h : body (pcNext i s) (pcNext i s) s = .fault f) : runBranch i body s = .fault f := by
  rw [runBranch_once hr, h]; rfl

/-- An instruction that names the count register of a repeat that would run it (U3). -/
theorem exec_of_namesRegister (hr : s.ps.rep ≠ 0) (he : repeatEnds s = false)
    (hn : namesRegister s.ps.repIndex i = true) (ho : isBranch i = true → s.cfg.repBranch = .testThenDecrement) :
    exec i s = .refused .repeatCountUsed := by
  have hshape := exec_shaped i s
  unfold Shaped at hshape
  split at hshape
  · next hb =>
    obtain ⟨body, hexec⟩ := hshape
    rw [hexec, runBranch, if_neg hr, ho hb, he, hn]
    rfl
  · obtain ⟨body, hexec⟩ := hshape
    rw [hexec, runPlain, if_neg hr, he, hn]
    rfl

end

/-! ## Processor registers, ports and masks -/

theorem setProcReg_eq_none {s : State} {n : Nat} {v : Word} (h : 12 < n) : s.setProcReg n v = none := by
  obtain ⟨m, rfl⟩ := Nat.exists_eq_add_of_le' h
  rfl

theorem procReg_eq_none {s : State} {n : Nat} (h : 12 < n) : s.procReg n = none := by
  obtain ⟨m, rfl⟩ := Nat.exists_eq_add_of_le' h
  rfl

theorem ldprAct_eq_refuse {s : State} {n : Byte} {v : Word} {d : Done} (h : 12 < n.toNat) :
    ldprAct v n d s = .refuse (.processorRegister n.toNat) := by
  unfold ldprAct
  rw [setProcReg_eq_none h]

theorem stprBody_eq_refuse {src des : Ref} {s s₁ s₂ : State} {l₁ l₂ : Loc} {n : Byte} {next : Word}
    (he : evalBoth .b .w .write src des s = .ok (l₁, l₂) s₁) (hn : readLoc .b l₁ s₁ = .ok n s₂) (h : 12 < n.toNat) :
    stprBody src des next s = .refuse (.processorRegister n.toNat) := by
  have hnone : s₂.procReg n.toNat = none := procReg_eq_none h
  refine (Flow.bind_of_ok _ he).trans ((Flow.bind_of_ok _ hn).trans ?_)
  dsimp only
  split
  · next v hv => cases hnone.symm.trans hv
  · rfl

section
variable {a m n : Word} {d : Done} {s : State}

theorem bptrAct_badMask (hm : badMask s.cfg m = true) : bptrAct a m d s = .refuse (.broadcastMask m) := if_pos hm

theorem bcntAct_badMask (hm : badMask s.cfg m = true) : bcntAct n m d s = .refuse (.broadcastMask m) := if_pos hm

theorem bptrAct_misuse (hm : badMask s.cfg m = false) (hr : maskReady s m = false) :
    bptrAct a m d s = .refuse .broadcastMisuse := by
  unfold bptrAct
  rw [hm, hr]
  rfl

theorem bcntAct_misuse (hm : badMask s.cfg m = false)
    (h : broadcasting s = true ∨ maskReady s m = false ∨ maskAligned s m = false) :
    bcntAct n m d s = .refuse .broadcastMisuse := by
  have hc : (broadcasting s || !maskReady s m || !maskAligned s m) = true := by
    rcases h with h | h | h <;> simp [h]
  unfold bcntAct
  rw [hm, hc]
  rfl

end

/-! ## Entries that do not fit memory -/

theorem takes_of_not_fits {n : Nat} {a : Word} {s : State} (h : entryFits s n = false) :
    takes n a s = .refused (.doubleFault n) := by
  unfold takes enter
  rw [h]
  rfl

/-! ## Suspect instruction bytes -/

theorem staleIn_eq_some {s : State} {x n a : Nat} (ha : s.fetchFresh a = false)
    (hfresh : ∀ b, x ≤ b → b < a → s.fetchFresh b = true) (hx : x ≤ a) (hn : a < x + n) : s.staleIn x n = some a := by
  have hfind : (List.range n).find? (fun j => !s.fetchFresh (x + j)) = some (a - x) :=
    List.find?_range_eq_some.2 ⟨by rw [Nat.add_sub_cancel' hx, ha]; rfl, List.mem_range.2 (by omega),
      fun j hj => by rw [hfresh (x + j) (by omega) (by omega)]; rfl⟩
  unfold State.staleIn
  rw [List.find?_map]
  refine (congrArg (Option.map _) hfind).trans ?_
  rw [Option.map_some, Nat.add_sub_cancel' hx]

theorem evalSecond_of_stale {role : Role} {k₁ k₂ : RefKind} {sp0 : Word} {src des : Ref} {s : State} {a : Nat}
    (h : s.staleIn (s.pc.toNat + 1 + src.length k₁) (des.length k₂) = some a) :
    evalSecond role k₁ k₂ sp0 src des s = .refuse (.staleFetch a) := by rw [evalSecond, h]

theorem evalBoth_of_stale {ts td : OpType} {role : Role} {src des : Ref} {s s₁ : State} {l : Loc} {a : Nat}
    (he : evalRef .src ts.len s.sp (s.pc + 2) src s = .ok l s₁)
    (h : s₁.staleIn (s.pc.toNat + 1 + src.length (.value ts)) (des.length (.value td)) = some a) :
    evalBoth ts td role src des s = .refuse (.staleFetch a) := by
  refine (Flow.bind_of_ok _ he).trans (Flow.bind_of_refuse _ (evalSecond_of_stale ?_))
  rw [(evalRef_control he).pc]
  exact h

/-! ## Accesses past the memory there is -/

section
variable {s : State} {a : Word} {n : Nat}

theorem loadN_of_absent (hm : s.cfg.memSize < 2 ^ 32) (h : s.cfg.memSize < a.toNat + n) :
    loadN a n s = .fault (.unpopulated (max a.toNat s.cfg.memSize)) := by
  rw [loadN, checkAccess_absent_iff.2 ⟨hm, h⟩]
  rfl

theorem storeN_of_absent (hm : s.cfg.memSize < 2 ^ 32) (h : s.cfg.memSize < a.toNat + n) (v : Nat) :
    storeN a n v s = .fault (.unpopulated (max a.toNat s.cfg.memSize)) := by
  rw [storeN, checkAccess_absent_iff.2 ⟨hm, h⟩]
  rfl

theorem pointer_of_absent (hm : s.cfg.memSize < 2 ^ 32) (h : s.cfg.memSize < a.toNat + 4) :
    pointer a s = .fault (.unpopulated (max a.toNat s.cfg.memSize)) :=
  Flow.bind_of_fault _ (loadN_of_absent hm h)

theorem missingBytes_of_absent {α : Type} (hm : s.cfg.memSize < 2 ^ 32) :
    (missingBytes s : Flow α) = .fault (.unpopulated (max s.pc.toNat s.cfg.memSize)) := by
  unfold missingBytes
  rw [if_neg (by omega)]
  rfl

theorem fetchBytes_of_absent (h : s.cfg.memSize ≤ s.pc.toNat) : fetchBytes s = [] := by
  unfold fetchBytes
  rw [Nat.sub_eq_zero_of_le h, Nat.min_zero]
  rfl

end

theorem dmaRead_of_absent {s : State} {a : Nat} (h : s.cfg.memSize < a + 2) :
    dmaRead s a = .error (.unpopulated (max a s.cfg.memSize)) := if_neg (by omega)

/-! ## Faults of the agents -/

theorem atoms_ne_nil {a n : Nat} (h : n ≠ 0) : ∃ b k rest, atoms a n = (b, k) :: rest := by
  match n, h with
  | 1, _ => exact ⟨a, 1, [], rfl⟩
  | n + 2, _ =>
    unfold atoms
    split
    · exact ⟨_, _, _, rfl⟩
    · exact ⟨_, _, _, rfl⟩

theorem agentsTurn_of_fault {s : State} {f : Fault} (h : letAgents s = .fault f) : agentsTurn s = .fault f := by
  rw [agentsTurn, h]

theorem step_of_agent {s : State} {e : Event} {rest : List Event} (h : s.events = e :: rest) (he : e ≠ .cpu) :
    step s = agentStep e { s with events := rest } := by
  show nodeStep s = _
  unfold nodeStep
  rw [h]
  cases e with
  | cpu => exact absurd rfl he
  | _ => rfl

section
variable {s : State} {i : Fin 11}

theorem sendStep_of_absent (hc : (s.outPort i).count ≠ 0) (hb : (s.outPort i).bcast = false) (hl : linkRoom s i = true)
    (h : s.cfg.memSize < (s.outPort i).address.toNat + 2) :
    sendStep i s = .fault (.unpopulated (max (s.outPort i).address.toNat s.cfg.memSize)) := by
  have hen : sendEnabled s i = true := by
    rw [sendEnabled, bne_iff_ne.2 hc, hb, hl]; rfl
  rw [sendStep, if_pos hen, dmaRead_of_absent h]

theorem storeStep_of_absent (hf : (s.inPort i).full = true) (hc : (s.inPort i).count ≠ 0)
    (h : s.cfg.memSize < (s.inPort i).address.toNat + 2) :
    storeStep i s = .fault (.unpopulated (max (s.inPort i).address.toNat s.cfg.memSize)) := by
  have hen : storeEnabled s i = true := by rw [storeEnabled, hf, bne_iff_ne.2 hc]; rfl
  unfold storeStep
  rw [if_pos hen, if_neg (by omega)]
  rfl

theorem broadcastStep_of_absent {js : List (Fin 11)} (hg : broadcastGroup s = i :: js) (hc : (s.outPort i).count ≠ 0)
    (hl : ∀ j ∈ i :: js, linkRoom s j = true) (h : s.cfg.memSize < (s.outPort i).address.toNat + 2) :
    broadcastStep s = .fault (.unpopulated (max (s.outPort i).address.toNat s.cfg.memSize)) := by
  have hen : ((s.outPort i).count != 0 && (i :: js).all (linkRoom s)) = true := by
    rw [Bool.and_eq_true, bne_iff_ne, List.all_eq_true]
    exact ⟨hc, hl⟩
  unfold broadcastStep
  rw [hg]
  dsimp only
  rw [if_pos hen, dmaRead_of_absent h]

theorem hostWriteStep_of_absent {k : Nat} {x : Half} (hio : s.cfg.ioBoard = true) (h : s.cfg.memSize < 2 * k + 2) :
    hostWriteStep k x s = .fault (.unpopulated (max (2 * k) s.cfg.memSize)) := by
  unfold hostWriteStep
  rw [hio, if_neg (by decide), if_neg (by omega)]
  rfl

theorem hostReadStep_of_absent {k : Nat} (hio : s.cfg.ioBoard = true) (h : s.cfg.memSize < 2 * k + 2) :
    hostReadStep k s = .fault (.unpopulated (max (2 * k) s.cfg.memSize)) := by
  unfold hostReadStep
  rw [hio, if_neg (by decide), dmaRead_of_absent h]

theorem loadN_of_agents_fault {a : Word} {n : Nat} {f : Fault} (hp : checkAccess s.cfg.memSize a.toNat n = .present)
    (hn : n ≠ 0) (h : letAgents s = .fault f) : loadN a n s = .fault f := by
  obtain ⟨b, k, rest, hat⟩ := atoms_ne_nil (a := a.toNat) hn
  rw [loadN, hp, hat]
  exact Flow.bind_of_fault _ (agentsTurn_of_fault h)

theorem storeN_of_agents_fault {a : Word} {n v : Nat} {f : Fault} (hp : checkAccess s.cfg.memSize a.toNat n = .present)
    (hn : n ≠ 0) (h : letAgents (s.noteWrite a.toNat n) = .fault f) : storeN a n v s = .fault f := by
  obtain ⟨b, k, rest, hat⟩ := atoms_ne_nil (a := a.toNat) hn
  rw [storeN, hp, hat]
  exact Flow.bind_of_fault _ (agentsTurn_of_fault h)

theorem step_of_stale {j : Instr} {rest : List Byte} {a : Nat} (hi : s.idle = false) (hp : s.pastEnd = false)
    (he : s.events = []) (hd : decode s.cfg (fetchBytes s) = .ok (j, rest)) (hf : staleByte s (fetchedFirst j s) = some a) :
    step s = .refused (.staleFetch a) := by
  rw [step_of_events_nil he, processorStep_of_running hi hp, executeNext, hd]
  dsimp only
  rw [hf]

theorem step_of_no_byte (hm : s.cfg.memSize < 2 ^ 32) (h : s.cfg.memSize ≤ s.pc.toNat) (hi : s.idle = false)
    (hp : s.pastEnd = false) (he : s.events = []) : step s = .fault (.unpopulated s.pc.toNat) := by
  rw [step_of_events_nil he, processorStep_of_running hi hp, executeNext, fetchBytes_of_absent h,
    show decode s.cfg [] = .error .empty from rfl]
  dsimp only
  rw [missingBytes_of_absent hm, Nat.max_eq_left h]
  rfl

end

/-- Settles O57. -/
theorem refused : Obligations.Refused := by
  refine ⟨fun src des s s₁ s₂ s₃ l₁ l₂ v n hr hn he hv hk => ?_, fun src des s s₁ s₂ l₁ l₂ n hr hn he hk => ?_,
    fun src des s s₁ s₂ s₃ l₁ l₂ a p hr he ha hp => ?ports, fun src des s s₁ s₂ s₃ l₁ l₂ n p hr he hn hp =>
      ⟨fun hi ho => ?_, fun i hi hb => ?_⟩,
    fun i s hr he hn ho => exec_of_namesRegister hr he hn ho, fun n a s h => takes_of_not_fits ?_,
    fun s i rest a hi hp he hd hf => step_of_stale hi hp he hd hf,
    fun src des s s₁ l x a v hr ha hfresh hx => ⟨fun he hxe hn => ?stale, fun he hxe hn => ?_⟩,
    fun s hm => ⟨fun a n h => ⟨loadN_of_absent hm h, fun v => storeN_of_absent hm h v⟩, fun t => ⟨fun a h => ⟨?_, fun v => ?_⟩,
      fun h sp0 w => ?_, fun h v => ?_⟩, fun h => ?_, fun h v => ?_, fun role len sp0 w n => ?pointers,
      fun h hi hp he => step_of_no_byte hm h hi hp he⟩,
    fun src des s f hr => ?evalFaults, fun src des s s₁ l₁ l₂ f hr => ?accessFaults, fun s rest => ?agents,
    fun s e es a n v f => ⟨fun h => ?_, fun hp hn => ⟨fun h => loadN_of_agents_fault hp hn h,
      fun h => storeN_of_agents_fault hp hn h⟩⟩⟩
  · exact exec_look_refused (exec_ldpr src des s) (.inl hr) he hv hk (ldprAct_eq_refuse hn)
  · exact runPlain_refuse hr (stprBody_eq_refuse he hk hn)
  case ports =>
    have hcfg : s₃.cfg = s.cfg :=
      (((evalBoth_control (by decide) he).trans (readLoc_control ha)).trans (readLoc_control hp)).cfg
    rw [← hcfg]
    exact ⟨fun hi ho => exec_look_refused (exec_lptr src des s) (.inl hr) he ha hp (lptrAct_none hi ho),
      fun i hi hb => exec_look_refused (exec_lptr src des s) (.inl hr) he ha hp ((lptrAct_out hi).trans (if_pos hb)),
      fun hm => ⟨exec_look_refused (exec_bptr src des s) (.inl hr) he ha hp (bptrAct_badMask hm),
        exec_look_refused (exec_bcnt src des s) (.inl hr) he ha hp (bcntAct_badMask hm)⟩,
      fun hm h => exec_look_refused (exec_bptr src des s) (.inl hr) he ha hp (bptrAct_misuse hm h),
      fun hm h => exec_look_refused (exec_bcnt src des s) (.inl hr) he ha hp (bcntAct_misuse hm h)⟩
  · exact exec_look_refused (exec_lcnt src des s) (.inl hr) he hn hp (lcntAct_none hi ho)
  · exact exec_look_refused (exec_lcnt src des s) (.inl hr) he hn hp ((lcntAct_out hi).trans (if_pos hb))
  · simp only [entryFits, Bool.and_eq_false_iff, decide_eq_false_iff_not]
    omega
  case stale =>
    subst hxe
    have hstale := staleIn_eq_some ha hfresh hx hn
    exact forall_mem_triple
      (runPlain_refuse hr (Flow.bind_of_refuse _ (evalBoth_of_stale (ts := .w) (td := .w) he hstale)))
      (runPlain_refuse hr (Flow.bind_of_refuse _ (evalBoth_of_stale (ts := .w) (td := .w) he hstale)))
      (runPlain_refuse hr (Flow.bind_of_refuse _ (evalBoth_of_stale (ts := .w) (td := .w) he hstale)))
  · subst hxe
    have hstale := staleIn_eq_some ha hfresh hx hn
    rw [← (evalTarget_control he).pc] at hstale
    exact runPlain_refuse hr ((Flow.bind_of_ok _ he).trans (Flow.bind_of_refuse _ (evalSecond_of_stale hstale)))
  · exact Flow.bind_of_fault _ (loadN_of_absent hm h)
  · exact storeN_of_absent hm h _
  · exact Flow.bind_of_fault _ (Flow.bind_of_fault _ (loadN_of_absent hm h))
  · exact storeN_of_absent (s := { s with sp := s.sp - BitVec.ofNat 32 t.len }) hm h _
  · exact Flow.bind_of_fault _ (Flow.bind_of_fault _ (loadN_of_absent hm h))
  · exact storeN_of_absent (s := { s with sp := s.sp - 4 }) hm h _
  case pointers =>
    refine ⟨fun h => Flow.bind_of_fault _ (pointer_of_absent hm h), fun a h => pointer_of_absent hm h,
      fun base r hmem off h0 h1 h => ?_, fun k => missingBytes_of_absent hm⟩
    have hsum : throughSum base off.toInt s = .fault (.unpopulated (max (base + off).toNat s.cfg.memSize)) := by
      rw [throughSum_of_inside h0 h1, BitVec.signExtend_eq]
      exact pointer_of_absent hm h
    simp only [List.mem_cons, Prod.mk.injEq, List.not_mem_nil, or_false] at hmem
    rcases hmem with ⟨rfl, rfl⟩ | ⟨rfl, rfl⟩ | ⟨rfl, rfl⟩
    · exact hsum
    · exact hsum
    · exact hsum
  case evalFaults =>
    exact ⟨fun h => runPlain_fault hr (Flow.bind_of_fault _ h), fun h => runPlain_fault hr (Flow.bind_of_fault _ h),
      fun h => runPlain_fault hr (Flow.bind_of_fault _ h),
      fun h => runBranch_fault (body := fun _ ret => callBody src ret) hr (Flow.bind_of_fault _ h),
      fun s₀ t he h => runBranch_fault (body := fun _ ret => callBody src ret) hr
        ((Flow.bind_of_ok _ he).trans (Flow.bind_of_fault _ h)),
      fun h => ⟨runBranch_fault (body := fun _ _ => retBody) hr (Flow.bind_of_fault _ h),
        (exec_reti s).trans (runPlain_fault hr (Flow.bind_of_fault _ (Flow.bind_of_fault _ h)))⟩⟩
  case accessFaults =>
    refine ⟨fun he => ⟨fun h => ?_, fun v s₀ hv h => ?_⟩, fun he => ⟨fun h => ?_, fun v s₀ hv h => ?_⟩,
      fun he => ⟨fun h => ?_, fun v s₀ hv h => ?_⟩⟩
    · exact runPlain_fault hr ((writeBody_of_evalBoth _ he).trans (Flow.bind_of_fault _ h))
    · exact runPlain_fault hr
        ((writeBody_of_evalBoth _ he).trans ((Flow.bind_of_ok _ hv).trans (Flow.bind_of_fault _ h)))
    · exact runPlain_fault hr ((modifyBody_of_evalBoth _ he).trans (Flow.bind_of_fault _ h))
    · exact runPlain_fault hr
        ((modifyBody_of_evalBoth _ he).trans ((Flow.bind_of_ok _ hv).trans (Flow.bind_of_fault _ h)))
    · exact runPlain_fault hr ((lookBody_of_evalBoth _ he).trans (Flow.bind_of_fault _ h))
    · exact runPlain_fault hr
        ((lookBody_of_evalBoth _ he).trans ((Flow.bind_of_ok _ hv).trans (Flow.bind_of_fault _ h)))
  case agents =>
    refine ⟨fun i he hc hb hl h => ?_, fun i he hf hc h => ?_, fun i js he hg hc hl h => ?_, fun k x he hio h => ?_⟩
    · rw [step_of_agent he (by simp)]
      exact sendStep_of_absent (s := { s with events := rest }) hc hb hl h
    · rw [step_of_agent he (by simp)]
      exact storeStep_of_absent (s := { s with events := rest }) hf hc h
    · rw [step_of_agent he (by simp)]
      exact broadcastStep_of_absent (s := { s with events := rest }) hg hc hl h
    · rcases he with he | he
      · rw [step_of_agent he (by simp)]
        exact hostWriteStep_of_absent (s := { s with events := rest }) hio h
      · rw [step_of_agent he (by simp)]
        exact hostReadStep_of_absent (s := { s with events := rest }) hio h
  · rw [runAgents, h]

end Sys2Proof.Machine

/-!
The steps of the channels (R451, R452, R467, R468), and what can fall between the memory accesses of one instruction (R86,
R96, R99).
-/
namespace Sys2Proof.Machine

open Sys2Proof

theorem dmaRead_of_present {s : State} {a : Nat} (h : a + 2 ≤ s.cfg.memSize) :
    dmaRead s a = .ok (BitVec.ofNat 16 (s.mem.readN a 2)) := if_pos h

section
variable {s : State} {i : Fin 11}

/-! ## Output channels -/

theorem sendStep_of_present (hc : (s.outPort i).count ≠ 0) (hb : (s.outPort i).bcast = false) (hl : linkRoom s i = true)
    (h : (s.outPort i).address.toNat + 2 ≤ s.cfg.memSize) :
    sendStep i s =
      .next (s.setOut i ((s.outPort i).sent (s.cfg.wiring.get i)
        (BitVec.ofNat 16 (s.mem.readN (s.outPort i).address.toNat 2)))) := by
  have hen : sendEnabled s i = true := by rw [sendEnabled, bne_iff_ne.2 hc, hb, hl]; rfl
  rw [sendStep, if_pos hen, dmaRead_of_present h]

theorem broadcastStep_of_present {js : List (Fin 11)} (hg : broadcastGroup s = i :: js) (hc : (s.outPort i).count ≠ 0)
    (hl : ∀ j ∈ i :: js, linkRoom s j = true) (h : (s.outPort i).address.toNat + 2 ≤ s.cfg.memSize) :
    broadcastStep s = .next (s.broadcastSent (BitVec.ofNat 16 (s.mem.readN (s.outPort i).address.toNat 2))) := by
  have hen : ((s.outPort i).count != 0 && (i :: js).all (linkRoom s)) = true := by
    rw [Bool.and_eq_true, bne_iff_ne, List.all_eq_true]
    exact ⟨hc, hl⟩
  unfold broadcastStep
  rw [hg]
  dsimp only
  rw [if_pos hen, dmaRead_of_present h]

theorem outPort_broadcastSent (x : Half) (j : Fin 11) :
    (s.broadcastSent x).outPort j =
      if (s.outPort j).bcast then
        { (s.outPort j).sent (s.cfg.wiring.get j) x with bcast := !((s.outPort j).sent (s.cfg.wiring.get j) x).ready }
      else s.outPort j := State.outPort_mapOut _ _ _

/-! ## Input channels -/

theorem storeStep_of_present (hf : (s.inPort i).full = true) (hc : (s.inPort i).count ≠ 0)
    (h : (s.inPort i).address.toNat + 2 ≤ s.cfg.memSize) :
    storeStep i s =
      .next ((s.poke (s.inPort i).address.toNat 2 (s.inPort i).latch.toNat).setIn i (s.inPort i).stored) := by
  have hen : storeEnabled s i = true := by rw [storeEnabled, hf, bne_iff_ne.2 hc]; rfl
  unfold storeStep
  rw [if_pos hen, if_pos h]

theorem inPort_setIn_of_ne (p : InPort) {j : Fin 11} (h : j ≠ i) : (s.setIn i p).inPort j = s.inPort j := by
  rw [State.inPort_setIn, if_neg h]

theorem outPort_setOut_of_ne (p : OutPort) {j : Fin 11} (h : j ≠ i) : (s.setOut i p).outPort j = s.outPort j := by
  rw [State.outPort_setOut, if_neg h]

end

/-- Settles O58. -/
theorem outputSteps : Obligations.OutputSteps := by
  refine ⟨fun i s hc hb hw hl h => ?_, fun s i rest hg hc hl h => ?_⟩
  · have hroom : linkRoom s i = true := by
      unfold linkRoom
      rw [hw]
      exact decide_eq_true hl
    refine ⟨_, sendStep_of_present hc hb hroom h, ?_, fun j hj => outPort_setOut_of_ne _ hj, rfl, rfl⟩
    rw [State.outPort_setOut_same, hw]
    rfl
  · refine ⟨_, broadcastStep_of_present hg hc hl h, rfl, rfl, fun j => ?_⟩
    rw [outPort_broadcastSent]
    refine ⟨fun hj => if_neg (by rw [hj]; decide), fun hj => ?_⟩
    rw [if_pos hj]
    refine ⟨rfl, rfl, ?_, fun hw => by rw [hw]; rfl⟩
    simp [OutPort.ready]

/-- Settles O59. -/
theorem inputSteps : Obligations.InputSteps := by
  refine ⟨fun i x bad s hw => ?_, fun i x bad s hw => ?_,
    fun i s => ⟨_, rfl, rfl, ?_, fun j hj => outPort_setOut_of_ne _ hj⟩, fun i s hm hf hc h => ?_⟩
  · refine ⟨s.setIn i ((s.inPort i).arrived x bad), ?_, State.inPort_setIn_same _ _ _,
      fun j hj => inPort_setIn_of_ne _ hj, rfl, rfl⟩
    rw [agentStep, State.arrives, if_pos hw]
  · rw [agentStep, State.arrives, if_neg (by rw [hw]; decide)]
  · rw [State.outPort_setOut_same, List.drop_one]
    rfl
  · obtain ⟨hread, hrest⟩ := poke_reads .h hm (s.inPort i).address.toNat (s.inPort i).latch
    exact ⟨_, storeStep_of_present hf hc h, State.inPort_setIn_same _ _ _, fun j hj => inPort_setIn_of_ne _ hj, rfl, hread,
      hrest⟩

/-! ## Between the accesses of one instruction -/

theorem atoms_word_even {a : Nat} (h : a % 2 = 0) : atoms a 4 = [(a, 2), (a + 2, 2)] := by
  have h2 : (a + 2) % 2 = 0 := by omega
  simp [atoms, h, h2]

theorem atoms_word_odd {a : Nat} (h : a % 2 = 1) : atoms a 4 = [(a, 1), (a + 1, 2), (a + 3, 1)] := by
  have h1 : (a + 1) % 2 = 0 := by omega
  simp [atoms, h, h1]

section
variable {s t u : State} {a k v w : Nat} {rest : List (Nat × Nat)}

theorem agentsTurn_of_next (h : letAgents s = .next t) : agentsTurn s = .ok () t := by rw [agentsTurn, h]

/-- Each atomic read sees what the agents that move just before it leave. -/
theorem readAtoms_cons (h : letAgents s = .next t) (hr : readAtoms rest t = .ok w u) :
    readAtoms ((a, k) :: rest) s = .ok (t.mem.readN a k + 256 ^ k * w) u :=
  (Flow.bind_of_ok _ (agentsTurn_of_next h)).trans (Flow.bind_of_ok _ hr)

theorem writeAtoms_cons (h : letAgents s = .next t) :
    writeAtoms ((a, k) :: rest) v s = writeAtoms rest (v / 256 ^ k) { t with mem := t.mem.writeN a k v } :=
  Flow.bind_of_ok _ (agentsTurn_of_next h)

end

/-- Settles O60. -/
theorem interleaving : Obligations.Interleaving := by
  refine ⟨fun s es rest => ⟨letAgents_quiet, fun h => ?_⟩, fun e es s t => ⟨rfl, fun h => ?_⟩,
    fun a s t₁ t₂ t₃ hp h₁ h₂ => ⟨fun heven => ?_, fun hodd h₃ => ?_⟩, fun a v s t₁ t₂ hp heven h₁ h₂ => ?_⟩
  · rw [letAgents, h]
  · rw [runAgents, h]
  · have hlast : readAtoms [(a.toNat + 2, 2)] t₁ = .ok (t₂.mem.readN (a.toNat + 2) 2 + 256 ^ 2 * 0) t₂ :=
      readAtoms_cons h₂ rfl
    rw [loadN, hp, atoms_word_even heven]
    exact readAtoms_cons h₁ hlast
  · have hlast : readAtoms [(a.toNat + 3, 1)] t₂ = .ok (t₃.mem.readN (a.toNat + 3) 1 + 256 ^ 1 * 0) t₃ :=
      readAtoms_cons h₃ rfl
    rw [loadN, hp, atoms_word_odd hodd]
    refine (readAtoms_cons h₁ (readAtoms_cons h₂ hlast)).trans ?_
    congr 1
    ring
  · rw [storeN, hp, atoms_word_even heven]
    exact (writeAtoms_cons h₁).trans (writeAtoms_cons h₂)

end Sys2Proof.Machine

/-!
Real instructions: what a pattern denotes (R301), what `fpCalc` makes of an outcome, the instructions that raise
(R310, R311) and signal (R306, R313), and the comparisons (R334).
-/
namespace Sys2Proof.Machine

open Sys2Proof

/-! ## Patterns and values -/

section
variable {f : Fmt} {x : Nat}

theorem Fmt.isNan_iff : f.isNan x = true ↔ f.value x = .nan := beq_iff_eq

theorem fmtOf_emax (t : OpType) : (fmtOf t).emax ≠ 0 := by cases t <;> decide

theorem emax_ne_zero_of_mem : ∀ f ∈ [Fmt.real, Fmt.long], f.emax ≠ 0 := by decide

/-- A pattern that tests as zero denotes a zero, and no other does. -/
theorem Fmt.isZero_iff (hf : f.emax ≠ 0) : f.isZero x = true ↔ ∃ sg e, f.value x = .fin sg 0 e := by
  have hpos : 2 ^ (f.prec - 1) + f.frac x ≠ 0 := by positivity
  unfold Fmt.isZero Fmt.value
  rw [Bool.and_eq_true, beq_iff_eq, beq_iff_eq]
  constructor
  · rintro ⟨he, hm⟩
    rw [he, hm, if_neg hf.symm, if_pos rfl]
    exact ⟨_, _, rfl⟩
  · rintro ⟨sg, e, h⟩
    split at h
    · split at h <;> cases h
    · split at h
      · next he => exact ⟨he, (FVal.fin.inj h).2.1⟩
      · exact absurd (FVal.fin.inj h).2.1 hpos

/-- A pattern that tests as negative and is no NaN denotes minus infinity or a number below zero, and no other does. -/
theorem Fmt.isNeg_iff (hf : f.emax ≠ 0) (hx : f.isNan x = false) :
    f.isNeg x = true ↔ f.value x = .inf true ∨ ∃ m e, f.value x = .fin true m e ∧ m ≠ 0 := by
  have hnan : f.value x ≠ .nan := fun h => Bool.noConfusion (hx.symm.trans (Fmt.isNan_iff.2 h))
  have hpos : 2 ^ (f.prec - 1) + f.frac x ≠ 0 := by positivity
  unfold Fmt.isNeg
  revert hnan
  unfold Fmt.value
  split
  · next he =>
    split
    · simp [he, hf]
    · exact fun h => absurd rfl h
  · split
    · next he => simp [he]
    · next he => simp [he]

end

/-- A number is its scaled whole number times the unit it is scaled by. -/
theorem scaled_rat (neg : Bool) (m : Nat) {e lo : Int} (h : lo ≤ e) :
    (scaled neg m e lo : ℚ) * 2 ^ lo = (FVal.fin neg m e).rat := by
  have hexp : (2 : ℚ) ^ e = 2 ^ (e - lo).toNat * 2 ^ lo := by
    rw [← zpow_natCast, ← zpow_add₀ two_ne_zero, Int.toNat_of_nonneg (by omega), sub_add_cancel]
  simp only [scaled, FVal.rat, hexp]
  cases neg
  · simp [mul_assoc]
  · simp [mul_assoc]

theorem scaled_lt_iff (p q : Bool) (m n : Nat) (x y : Int) :
    scaled p m x (min x y) < scaled q n y (min x y) ↔ (FVal.fin p m x).rat < (FVal.fin q n y).rat := by
  have hunit : (0 : ℚ) < 2 ^ min x y := by positivity
  rw [← scaled_rat p m (min_le_left x y), ← scaled_rat q n (min_le_right x y), mul_lt_mul_iff_of_pos_right hunit,
    Int.cast_lt]

theorem scaled_eq_iff (p q : Bool) (m n : Nat) (x y : Int) :
    scaled p m x (min x y) = scaled q n y (min x y) ↔ (FVal.fin p m x).rat = (FVal.fin q n y).rat := by
  have hunit : (2 : ℚ) ^ min x y ≠ 0 := by positivity
  rw [← scaled_rat p m (min_le_left x y), ← scaled_rat q n (min_le_right x y), mul_left_inj' hunit, Int.cast_inj]

/-! ## What an outcome makes of an instruction -/

section
variable {t : OpType} {p : PsReg} {free : BitVec t.bits} {first second : FrOperand}

theorem fpCalc_store (v : BitVec t.bits) (ix uf ov g r u : Bool) :
    fpCalc t p free first second (.store (some v.toNat) ix uf ov g r u) =
      .done v ((p.withReal (fmtOf t) v.toNat).withFp ix uf false ov false)
        ⟨false, fpSignal ix uf ov ⟨u, r, g, first, second⟩⟩ 0 := by
  simp [fpCalc]

/-- A result that only was rounded signals nothing where Inexact is not delivered. -/
theorem quietSignal_inexact {ix : Bool} (fr : FrFields) (h : (ix && (p.eIIX && p.eIE)) = false) :
    quietSignal ⟨false, fpSignal ix false false fr⟩ p = true := by
  cases ix
  · rfl
  · exact congrArg not h

/-- The exception of a delivered result (R306): Underflow, else Overflow, else Inexact where it is enabled. -/
theorem signalled_fpSignal {ix uf ov : Bool} {n : Nat} (fr : FrFields)
    (h : (uf = true ∧ n = 6) ∨ (uf = false ∧ ov = true ∧ n = 8) ∨
      (uf = false ∧ ov = false ∧ ix = true ∧ (p.eIIX && p.eIE) = true ∧ n = 5)) :
    signalled ⟨false, fpSignal ix uf ov fr⟩ p = some (n, some fr) := by
  rcases h with ⟨rfl, rfl⟩ | ⟨rfl, rfl, rfl⟩ | ⟨rfl, rfl, rfl, hen, rfl⟩
  · rfl
  · rfl
  · exact if_pos hen

end

section
variable {ts td : OpType} {mk : Ref → Ref → Instr} {v : BitVec td.bits} {ix uf ov g r u : Bool} {n : Nat}
  {free : State → BitVec td.bits}

theorem Writes.of_fpCalc {first : BitVec ts.bits → FrOperand} {o : State → BitVec ts.bits → FpOut}
    (hexec : ∀ src des s, exec (mk src des) s = runPlain (mk src des)
      (writeBody ts td (fun a => fpCalc td s.ps (free s) (first a) .unused (o s a)) src des) s) :
    Writes ts td mk
      (fun s a => o s a = .store (some v.toNat) ix false false g r u ∧ (ix && s.iixEnabled) = false) (fun _ _ => v)
      (fun s _ => (s.ps.withReal (fmtOf td) v.toNat).withFp ix false false false false) :=
  Writes.of _ hexec fun s a ⟨ho, hiix⟩ => by
    rw [ho, fpCalc_store]
    exact ⟨_, rfl, quietSignal_inexact _ hiix⟩

theorem WriteSignals.of_fpCalc {first : BitVec ts.bits → FrOperand} {o : State → BitVec ts.bits → FpOut}
    (hexec : ∀ src des s, exec (mk src des) s = runPlain (mk src des)
      (writeBody ts td (fun a => fpCalc td s.ps (free s) (first a) .unused (o s a)) src des) s) :
    WriteSignals ts td mk n
      (fun s a => o s a = .store (some v.toNat) ix uf ov g r u ∧
        ((uf = true ∧ n = 6) ∨ (uf = false ∧ ov = true ∧ n = 8) ∨
          (uf = false ∧ ov = false ∧ ix = true ∧ s.iixEnabled = true ∧ n = 5)))
      (fun _ _ => v) (fun s _ => (s.ps.withReal (fmtOf td) v.toNat).withFp ix uf false ov false)
      (fun a => some ⟨u, r, g, first a, .unused⟩) :=
  WriteSignals.of _ hexec fun s a ⟨ho, hsig⟩ => by
    rw [ho, fpCalc_store]
    exact ⟨_, rfl, signalled_fpSignal _ hsig⟩

/-- As `WriteSignals.of_fpCalc` where a result can only be inexact. -/
theorem WriteSignals.of_inexact {first : BitVec ts.bits → FrOperand} {o : State → BitVec ts.bits → FpOut}
    (hexec : ∀ src des s, exec (mk src des) s = runPlain (mk src des)
      (writeBody ts td (fun a => fpCalc td s.ps (free s) (first a) .unused (o s a)) src des) s) :
    WriteSignals ts td mk 5
      (fun s a => o s a = .store (some v.toNat) true false false g r u ∧ s.iixEnabled = true)
      (fun _ _ => v) (fun s _ => (s.ps.withReal (fmtOf td) v.toNat).withFp true false false false false)
      (fun a => some ⟨u, r, g, first a, .unused⟩) :=
  WriteSignals.of _ hexec fun s a ⟨ho, hiix⟩ => by
    rw [ho, fpCalc_store]
    exact ⟨_, rfl, if_pos hiix⟩

theorem Modifies.of_fpCalc {first : BitVec ts.bits → FrOperand} {second : BitVec td.bits → FrOperand}
    {o : State → BitVec ts.bits → BitVec td.bits → FpOut}
    (hexec : ∀ src des s, exec (mk src des) s = runPlain (mk src des)
      (modifyBody ts td (fun a b => fpCalc td s.ps (free s) (first a) (second b) (o s a b)) src des) s) :
    Modifies ts td mk
      (fun s a b => o s a b = .store (some v.toNat) ix false false g r u ∧ (ix && s.iixEnabled) = false)
      (fun _ _ _ => v) (fun s _ _ => (s.ps.withReal (fmtOf td) v.toNat).withFp ix false false false false) :=
  Modifies.of _ hexec fun s a b ⟨ho, hiix⟩ => by
    rw [ho, fpCalc_store]
    exact ⟨_, rfl, quietSignal_inexact _ hiix⟩

theorem ModifySignals.of_fpCalc {first : BitVec ts.bits → FrOperand} {second : BitVec td.bits → FrOperand}
    {o : State → BitVec ts.bits → BitVec td.bits → FpOut}
    (hexec : ∀ src des s, exec (mk src des) s = runPlain (mk src des)
      (modifyBody ts td (fun a b => fpCalc td s.ps (free s) (first a) (second b) (o s a b)) src des) s) :
    ModifySignals ts td mk n
      (fun s a b => o s a b = .store (some v.toNat) ix uf ov g r u ∧
        ((uf = true ∧ n = 6) ∨ (uf = false ∧ ov = true ∧ n = 8) ∨
          (uf = false ∧ ov = false ∧ ix = true ∧ s.iixEnabled = true ∧ n = 5)))
      (fun _ _ _ => v) (fun s _ _ => (s.ps.withReal (fmtOf td) v.toNat).withFp ix uf false ov false)
      (fun a b => some ⟨u, r, g, first a, second b⟩) :=
  ModifySignals.of _ hexec fun s a b ⟨ho, hsig⟩ => by
    rw [ho, fpCalc_store]
    exact ⟨_, rfl, signalled_fpSignal _ hsig⟩

end

/-! ## The instructions -/

theorem exec_realOperations : ∀ e ∈ realOperations, ∀ src des s,
    exec (e.2.1 src des) s =
      runPlain (e.2.1 src des)
        (modifyBody e.1 e.1 (fun a b => fpCalc e.1 s.ps (s.freeNext e.1.bits) (frOperand (fmtOf e.1) a.toNat)
          (frOperand (fmtOf e.1) b.toNat) (realOutcome e s a b)) src des) s := by
  intro e he src des s
  fin_cases he <;> rfl

theorem exec_realToReal : ∀ p ∈ [(OpType.l, OpType.r, Instr.cvlr), (.r, .l, .cvrl)], ∀ src des s,
    exec (p.2.2 src des) s =
      runPlain (p.2.2 src des)
        (writeBody p.1 p.2.1 (fun a => fpCalc p.2.1 s.ps (s.freeNext p.2.1.bits) (frOperand (fmtOf p.1) a.toNat) .unused
          ((fmtOf p.2.1).deliverValue ((fmtOf p.2.1).wrap s.cfg) s.ps.rc ((fmtOf p.1).value a.toNat))) src des) s :=
  forall_mem_pair (fun _ _ _ => rfl) (fun _ _ _ => rfl)

theorem exec_sqt : ∀ p ∈ [(OpType.r, Instr.sqtr), (.l, .sqtl)], ∀ src des s,
    exec (p.2 src des) s =
      runPlain (p.2 src des)
        (writeBody p.1 p.1 (fun a => fpCalc p.1 s.ps 0 (frOperand (fmtOf p.1) a.toNat) .unused
          ((fmtOf p.1).sqrt s.ps.rc ((fmtOf p.1).value a.toNat))) src des) s :=
  forall_mem_pair (fun _ _ _ => rfl) (fun _ _ _ => rfl)

theorem exec_negReal : ∀ p ∈ [(OpType.r, Instr.negr), (.l, .negl)], ∀ src des s,
    exec (p.2 src des) s = runPlain (p.2 src des) (writeBody p.1 p.1 (negCalc p.1 s.ps) src des) s :=
  forall_mem_pair (fun _ _ _ => rfl) (fun _ _ _ => rfl)

theorem exec_sgn : ∀ p ∈ [(OpType.r, Instr.sgnr), (.l, .sgnl)], ∀ src des s,
    exec (p.2 src des) s = runPlain (p.2 src des) (modifyBody p.1 p.1 (sgnCalc p.1 s.ps) src des) s :=
  forall_mem_pair (fun _ _ _ => rfl) (fun _ _ _ => rfl)

theorem exec_remReal : ∀ p ∈ [(OpType.r, Instr.remr), (.l, .reml)], ∀ src des s,
    exec (p.2 src des) s =
      runPlain (p.2 src des) (modifyBody p.1 p.1 (remCalc p.1 s.cfg s.ps (s.freeNext p.1.bits)) src des) s :=
  forall_mem_pair (fun _ _ _ => rfl) (fun _ _ _ => rfl)

theorem exec_cmpReal : ∀ p ∈ [(OpType.r, Instr.cmpr), (.l, .cmpl)], ∀ src des s,
    exec (p.2 src des) s = runPlain (p.2 src des) (flagsBody p.1 (compareRealFlags p.1 s.ps) src des) s :=
  forall_mem_pair (fun _ _ _ => rfl) (fun _ _ _ => rfl)

theorem exec_intToReal : ∀ p ∈ [(OpType.b, OpType.r, Instr.cvbr), (.h, .r, .cvhr), (.w, .r, .cvwr), (.b, .l, .cvbl),
      (.h, .l, .cvhl), (.w, .l, .cvwl)], ∀ src des s,
    exec (p.2.2 src des) s =
      runPlain (p.2.2 src des)
        (writeBody p.1 p.2.1 (fun a => fpCalc p.2.1 s.ps 0 { FrOperand.unused with sign := a.msb } .unused
          ((fmtOf p.2.1).ofInt s.ps.rc a.toInt)) src des) s := by
  intro p hp src des s
  fin_cases hp <;> rfl

/-! ## Comparisons -/

theorem compareRealFlags_eq (t : OpType) (p : PsReg) (a b : BitVec t.bits) :
    compareRealFlags t p a b =
      if (fmtOf t).isNan a.toNat = true ∨ (fmtOf t).isNan b.toNat = true then
        ({ p with fU := true, fC := false, fN := false, fZ := false, fV := false }).clearFp
      else
        ({ p with
            fC := ((fmtOf t).value a.toNat).lt ((fmtOf t).value b.toNat)
            fN := ((fmtOf t).value a.toNat).lt ((fmtOf t).value b.toNat)
            fZ := ((fmtOf t).value a.toNat).eq ((fmtOf t).value b.toNat)
            fV := false
            fU := false }).clearFp := by
  unfold compareRealFlags
  simp only [Bool.or_eq_true]
  split <;> rfl

/-- Settles O37. -/
theorem realCompares : Obligations.RealCompares := by
  refine ⟨fun p hp => ?compares, fun p q m n x y => ⟨?lt, ?eq, rfl, rfl, rfl, rfl, rfl, rfl⟩⟩
  case compares =>
    have hstatus : (fun s a b => compareRealFlags p.1 (State.ps s) a b) = _ :=
      funext fun s => funext fun a => funext fun b => compareRealFlags_eq p.1 s.ps a b
    exact hstatus ▸ Compares.of (exec_cmpReal p hp)
  case lt => exact decide_eq_true_iff.trans (scaled_lt_iff p q m n x y)
  case eq => exact beq_iff_eq.trans (scaled_eq_iff p q m n x y)

/-! ## Signals -/

/-- A remainder's flags replace those of the delivered result. -/
theorem remCalc_store {t : OpType} {cfg : Params} {p : PsReg} {free a b v : BitVec t.bits} {ix uf g r u : Bool} {x : FVal}
    (ho : (fmtOf t).rem ((fmtOf t).wrap cfg) p.rc ((fmtOf t).value b.toNat) ((fmtOf t).value a.toNat) =
      .store (some v.toNat) ix uf false g r u)
    (hx : remValue ((fmtOf t).value b.toNat) ((fmtOf t).value a.toNat) = some x) :
    remCalc t cfg p free a b =
      .done v (remFlags p x ((fmtOf t).value a.toNat) uf)
        ⟨false, fpSignal ix uf false
          ⟨u, r, g, frOperand (fmtOf t) a.toNat, frOperand (fmtOf t) b.toNat⟩⟩ 0 := by
  unfold remCalc
  simp only [ho, hx, fpCalc_store]
  rfl

/-- Settles O33. -/
theorem realSignals : Obligations.RealSignals := by
  refine ⟨fun e he v ix uf ov g r u n => ModifySignals.of_fpCalc (exec_realOperations e he),
    fun p hp v ix uf ov g r u n => WriteSignals.of_fpCalc (exec_realToReal p hp),
    fun p hp v g r u => WriteSignals.of_inexact (exec_sqt p hp),
    fun v g r u => WriteSignals.of_inexact (exec_intToReal (.w, .r, .cvwr) (by simp)),
    fun p hp sg m e rc => WriteSignals.of _ (exec_toWord p hp) fun s a ⟨hval, hrc, hov, hix, hiix⟩ => ?toWord,
    fun p hp v ix g r u x => ModifySignals.of _ (exec_remReal p hp) fun s a b ⟨ho, hx⟩ => ?rem⟩
  case toWord =>
    subst hrc
    rw [realToWordCalc_fin hval, hix]
    refine ⟨_, rfl, ?_⟩
    have hiv : (outOfRange 32 (roundToInt s.ps.rc sg m e).value && s.ps.eIV && s.ps.eIE) = false := by
      rw [Bool.and_assoc]
      exact hov
    exact (if_neg (Bool.eq_false_iff.1 hiv)).trans (if_pos hiix)
  case rem =>
    exact ⟨_, remCalc_store ho hx, rfl⟩

/-! ## Traps -/

section
variable {t : OpType} {p : PsReg} {f : Fmt} {a : BitVec t.bits}

/-- An operation with a NaN operand is Invalid (R310). -/
theorem realOperations_nan : ∀ e ∈ realOperations, ∀ (f : Fmt) (w : Nat) (rc : BitVec 2) (x y : FVal),
    x = .nan ∨ y = .nan → e.2.2 f w rc x y = .invalid := by
  have hadd : ∀ (f : Fmt) w rc x y, x = .nan ∨ y = .nan → f.add w rc x y = .invalid := by
    rintro f w rc x y (rfl | rfl)
    · rfl
    · cases x <;> rfl
  have hmul : ∀ (f : Fmt) w rc x y, x = .nan ∨ y = .nan → f.mul w rc x y = .invalid := by
    rintro f w rc x y (rfl | rfl)
    · rfl
    · cases x <;> rfl
  have hdiv : ∀ (f : Fmt) w rc x y, x = .nan ∨ y = .nan → f.div w rc x y = .invalid := by
    rintro f w rc x y (rfl | rfl)
    · rfl
    · cases x <;> rfl
  have hneg : ∀ {x : FVal}, x = .nan → x.neg = .nan := fun h => by rw [h]; rfl
  intro e he f w rc x y h
  fin_cases he
  · exact hadd _ _ _ _ _ h
  · exact hadd _ _ _ _ _ h
  · exact hadd _ _ _ _ _ (h.symm.imp_right hneg)
  · exact hadd _ _ _ _ _ (h.symm.imp_right hneg)
  · exact hadd _ _ _ _ _ (h.imp_right hneg)
  · exact hadd _ _ _ _ _ (h.imp_right hneg)
  · exact hmul _ _ _ _ _ h
  · exact hmul _ _ _ _ _ h
  · exact hdiv _ _ _ _ _ h.symm
  · exact hdiv _ _ _ _ _ h.symm
  · exact hdiv _ _ _ _ _ h
  · exact hdiv _ _ _ _ _ h

/-- The root of a number below zero is Invalid (R342). -/
theorem sqrt_of_isNeg (rc : BitVec 2) {x : Nat} (hf : f.emax ≠ 0) (h : f.isNeg x = true) :
    f.sqrt rc (f.value x) = .invalid := by
  by_cases hnan : f.isNan x = true
  · rw [Fmt.isNan_iff.1 hnan]; rfl
  · obtain hx | ⟨m, e, hx, hm⟩ := (Fmt.isNeg_iff hf (Bool.eq_false_iff.2 hnan)).1 h
    · rw [hx]; rfl
    · rw [hx]; exact if_neg hm

/-- There is no remainder where an operand is a NaN, where src is a zero and where dsrc is infinite (R340). -/
theorem remValue_eq_none {d s : FVal} (h : d = .nan ∨ s = .nan ∨ (∃ sg e, s = .fin sg 0 e) ∨ ∃ sg, d = .inf sg) :
    remValue d s = none := by
  rcases h with rfl | rfl | ⟨sg, e, rfl⟩ | ⟨sg, rfl⟩
  · rfl
  · cases d <;> rfl
  · cases d <;> rfl
  · rfl

theorem remCalc_of_none {cfg : Params} {free b : BitVec t.bits}
    (h : remValue ((fmtOf t).value b.toNat) ((fmtOf t).value a.toNat) = none) :
    remCalc t cfg p free a b = invalidCalc p (frOperand (fmtOf t) a.toNat) (frOperand (fmtOf t) b.toNat) := by
  unfold remCalc Fmt.rem
  simp only [h]
  rfl

theorem negCalc_of_isNan (h : (fmtOf t).isNan a.toNat = true) :
    negCalc t p a = invalidCalc p (frOperand (fmtOf t) a.toNat) .unused := by
  unfold negCalc
  simp only [h]
  rfl

theorem sgnCalc_of_isNan {b : BitVec t.bits}
    (h : (fmtOf t).isNan a.toNat = true ∨ (fmtOf t).isNan b.toNat = true) :
    sgnCalc t p a b = invalidCalc p (frOperand (fmtOf t) a.toNat) (frOperand (fmtOf t) b.toNat) := by
  unfold sgnCalc
  simp only [Bool.or_eq_true_iff.2 h]
  rfl

theorem realToWordCalc_of_isNan {free : Word} (h : (fmtOf t).isNan a.toNat = true) :
    realToWordCalc t p free a = invalidCalc p (frOperand (fmtOf t) a.toNat) .unused := by
  unfold realToWordCalc
  simp only [Fmt.isNan_iff.1 h]

end

section
variable {ts td : OpType} {mk : Ref → Ref → Instr}

/-- A writing instruction of one real operand is Invalid where its calculation is. -/
theorem WriteRaises.of_invalid {when : State → BitVec ts.bits → Prop} (op : State → BitVec ts.bits → Calc td.bits)
    (hexec : ∀ src des s, exec (mk src des) s = runPlain (mk src des) (writeBody ts td (op s) src des) s)
    (hop : ∀ s a, when s a → op s a = invalidCalc s.ps (frOperand (fmtOf ts) a.toNat) .unused) :
    WriteRaises ts td mk 9 when
      (fun s _ => ({ s.ps with fV := false, fU := false }).withFp false false false false true)
      (fun a => some ⟨false, false, false, frOperand (fmtOf ts) a.toNat, .unused⟩) :=
  WriteRaises.of op hexec hop

/-- A modifying instruction of two real operands is Invalid where its calculation is. -/
theorem ModifyRaises.of_invalid {when : State → BitVec ts.bits → BitVec td.bits → Prop}
    (op : State → BitVec ts.bits → BitVec td.bits → Calc td.bits)
    (hexec : ∀ src des s, exec (mk src des) s = runPlain (mk src des) (modifyBody ts td (op s) src des) s)
    (hop : ∀ s a b, when s a b →
      op s a b = invalidCalc s.ps (frOperand (fmtOf ts) a.toNat) (frOperand (fmtOf td) b.toNat)) :
    ModifyRaises ts td mk 9 when
      (fun s _ _ => ({ s.ps with fV := false, fU := false }).withFp false false false false true)
      (fun a b => some ⟨false, false, false, frOperand (fmtOf ts) a.toNat, frOperand (fmtOf td) b.toNat⟩) :=
  ModifyRaises.of op hexec hop

end

/-- Settles O34. -/
theorem realTraps : Obligations.RealTraps := by
  have hnegs := fun (p) (hp : p ∈ [(OpType.r, Instr.negr), (.l, .negl)]) =>
    WriteRaises.of_invalid _ (exec_negReal p hp) fun _ _ h => negCalc_of_isNan h
  have hsqts := fun (p) (hp : p ∈ [(OpType.r, Instr.sqtr), (.l, .sqtl)]) =>
    WriteRaises.of_invalid (when := fun _ a => (fmtOf p.1).isNan a.toNat = true) _ (exec_sqt p hp)
      fun _ _ h => by rw [Fmt.isNan_iff.1 h]; rfl
  have hreals := fun (p) (hp : p ∈ [(OpType.l, OpType.r, Instr.cvlr), (.r, .l, .cvrl)]) =>
    WriteRaises.of_invalid (when := fun _ a => (fmtOf p.1).isNan a.toNat = true) _ (exec_realToReal p hp)
      fun _ _ h => by rw [Fmt.isNan_iff.1 h]; rfl
  have hwords := fun (p) (hp : p ∈ [(OpType.r, Instr.cvrw), (.l, .cvlw)]) =>
    WriteRaises.of_invalid _ (exec_toWord p hp) fun _ _ h => realToWordCalc_of_isNan h
  have hsgns := fun (p) (hp : p ∈ [(OpType.r, Instr.sgnr), (.l, .sgnl)]) =>
    ModifyRaises.of_invalid _ (exec_sgn p hp) fun _ _ _ h => sgnCalc_of_isNan h
  have hrems := fun (p) (hp : p ∈ [(OpType.r, Instr.remr), (.l, .reml)]) =>
    ModifyRaises.of_invalid
      (when := fun _ a b => (fmtOf p.1).isNan a.toNat = true ∨ (fmtOf p.1).isNan b.toNat = true) _ (exec_remReal p hp)
      fun _ _ _ h => remCalc_of_none (remValue_eq_none
        (h.symm.imp Fmt.isNan_iff.1 fun h => .inl (Fmt.isNan_iff.1 h)))
  refine ⟨⟨fun e he => ⟨?invalid, ?zeroDivide, fun s a b h => ?nan⟩, fun f w rc p q m x y => ⟨?opposite, rfl, rfl, rfl, rfl, fun h => if_neg h⟩⟩,
    ?writes, fun p hp => ?negative, ?modifies, fun p hp sg => ?remainder⟩
  case invalid => exact ModifyRaises.of_invalid _ (exec_realOperations e he) fun _ _ _ h => by rw [h]; rfl
  case zeroDivide => exact ModifyRaises.of _ (exec_realOperations e he) fun _ _ _ h => by rw [h]; rfl
  case nan => exact realOperations_nan e he _ _ _ _ _ (h.imp Fmt.isNan_iff.1 Fmt.isNan_iff.1)
  case opposite => cases p <;> rfl
  case negative =>
    exact WriteRaises.of_invalid _ (exec_sqt p hp) fun _ _ h => by rw [sqrt_of_isNeg _ (fmtOf_emax _) h]; rfl
  case remainder =>
    exact ModifyRaises.of_invalid _ (exec_remReal p hp) fun _ _ _ h => remCalc_of_none (remValue_eq_none
      (.inr (.inr (h.imp (Fmt.isZero_iff (fmtOf_emax _)).1 fun h => ⟨_, h⟩))))
  case writes =>
    simp only [List.forall_mem_cons]
    exact ⟨hnegs (.r, .negr) (by simp), hnegs (.l, .negl) (by simp), hsqts (.r, .sqtr) (by simp),
      hsqts (.l, .sqtl) (by simp), hreals (.l, .r, .cvlr) (by simp), hreals (.r, .l, .cvrl) (by simp),
      hwords (.r, .cvrw) (by simp), hwords (.l, .cvlw) (by simp), nofun⟩
  case modifies =>
    simp only [List.forall_mem_cons]
    exact ⟨hsgns (.r, .sgnr) (by simp), hsgns (.l, .sgnl) (by simp), hrems (.r, .remr) (by simp),
      hrems (.l, .reml) (by simp), nofun⟩

end Sys2Proof.Machine

/-!
The sign bit of a real pattern (R300), and the instructions that only change it (R322 to R325).
-/
namespace Sys2Proof.Machine

open Sys2Proof

theorem fmtOf_width {t : OpType} (h : t = .r ∨ t = .l) : (fmtOf t).prec + (fmtOf t).eBits = t.bits ∧ 1 ≤ (fmtOf t).prec := by
  rcases h with rfl | rfl <;> decide

/-- A pattern with its sign replaced keeps the bits below the sign bit. -/
theorem Fmt.withSign_eq (f : Fmt) (neg : Bool) (x : Nat) (h : 1 ≤ f.prec) :
    f.withSign neg x = 2 ^ (f.prec + f.eBits - 1) * neg.toNat + x % 2 ^ (f.prec + f.eBits - 1) := by
  have hlow : x % 2 ^ (f.prec + f.eBits - 1) = f.expo x * 2 ^ (f.prec - 1) + f.frac x := by
    rw [Fmt.expo, Fmt.frac, show f.prec + f.eBits - 1 = (f.prec - 1) + f.eBits by omega, pow_add, Nat.mod_mul, Nat.mul_comm,
      Nat.add_comm]
  rw [Fmt.withSign, Fmt.join, hlow]
  cases neg <;> simp [Nat.add_assoc]

theorem Fmt.sign_toNat {f : Fmt} {w : Nat} (a : BitVec w) (hw : f.prec + f.eBits = w) : f.sign a.toNat = a.msb := by
  rw [BitVec.msb_eq_getLsbD_last, Fmt.sign, hw, BitVec.getLsbD, Nat.testBit_eq_decide_div_mod_eq]
  rfl

section
variable {w : Nat}

/-- The bits of one word with the sign bit of another. -/
theorem toNat_copySign (hw : 0 < w) (a b : BitVec w) :
    ((b &&& ~~~(signBit w)) ||| (a &&& signBit w)).toNat = 2 ^ (w - 1) * a.msb.toNat + b.toNat % 2 ^ (w - 1) := by
  apply Nat.eq_of_testBit_eq
  intro i
  rw [Nat.testBit_two_pow_mul_add _ (Nat.mod_lt _ (by positivity)), BitVec.testBit_toNat]
  rw [BitVec.getLsbD_or, BitVec.getLsbD_and, BitVec.getLsbD_and, BitVec.getLsbD_not, signBit, BitVec.getLsbD_twoPow]
  split
  · next hi =>
    have hlt : i < w := by omega
    have hne : ¬ w - 1 = i := by omega
    simp [hlt, hne, Nat.testBit_mod_two_pow, hi, BitVec.getElem_eq_testBit_toNat]
  · next hi =>
    rw [Nat.testBit_bool_toNat]
    by_cases htop : i = w - 1
    · subst htop
      simp [hw, BitVec.msb_eq_getLsbD_last]
    · have hout : ¬ i < w := by omega
      have hne : ¬ w - 1 = i := by omega
      have hpos : i - (w - 1) ≠ 0 := by omega
      simp [hout, hne, hpos]

theorem xor_signBit (a : BitVec w) : a ^^^ signBit w = (a &&& ~~~(signBit w)) ||| (~~~a &&& signBit w) := by
  ext i hi
  simp only [BitVec.getElem_xor, BitVec.getElem_or, BitVec.getElem_and, BitVec.getElem_not]
  cases a[i] <;> cases (signBit w)[i] <;> rfl

end

section
variable {t : OpType} {p : PsReg} {a b : BitVec t.bits}

theorem withSign_copySign (ht : t = .r ∨ t = .l) :
    (fmtOf t).withSign ((fmtOf t).sign a.toNat) b.toNat = ((b &&& ~~~(signBit _)) ||| (a &&& signBit _)).toNat := by
  obtain ⟨hw, hprec⟩ := fmtOf_width ht
  rw [Fmt.withSign_eq _ _ _ hprec, Fmt.sign_toNat a hw, toNat_copySign (by omega), hw]

theorem withSign_flipSign (ht : t = .r ∨ t = .l) :
    (fmtOf t).withSign (!(fmtOf t).sign a.toNat) a.toNat = (a ^^^ signBit _).toNat := by
  have hflip : (!(fmtOf t).sign a.toNat) = (fmtOf t).sign (~~~a).toNat := by
    obtain ⟨hw, hprec⟩ := fmtOf_width ht
    rw [Fmt.sign_toNat a hw, Fmt.sign_toNat _ hw, BitVec.msb_not]
    simp [show 0 < t.bits by omega]
  rw [hflip, withSign_copySign ht, xor_signBit]

theorem negCalc_of_number (ht : t = .r ∨ t = .l) (h : (fmtOf t).isNan a.toNat = false) :
    negCalc t p a =
      .done (a ^^^ signBit _) (p.withReal (fmtOf t) (a ^^^ signBit _).toNat).clearFp .none 0 := by
  unfold negCalc
  simp only [h, withSign_flipSign ht]
  exact fpCalc_store _ false false false false false false

theorem sgnCalc_of_numbers (ht : t = .r ∨ t = .l) (ha : (fmtOf t).isNan a.toNat = false)
    (hb : (fmtOf t).isNan b.toNat = false) :
    sgnCalc t p a b =
      .done ((b &&& ~~~(signBit _)) ||| (a &&& signBit _))
        (p.withReal (fmtOf t) ((b &&& ~~~(signBit _)) ||| (a &&& signBit _)).toNat).clearFp .none 0 := by
  unfold sgnCalc
  simp only [ha, hb, withSign_copySign ht]
  exact fpCalc_store _ false false false false false false

end

/-- Settles O31. -/
theorem realSigns : Obligations.RealSigns := by
  have hneg : ∀ p ∈ [(OpType.r, Instr.negr), (.l, .negl)], p.1 = .r ∨ p.1 = .l := forall_mem_pair (.inl rfl) (.inr rfl)
  have hsgn : ∀ p ∈ [(OpType.r, Instr.sgnr), (.l, .sgnl)], p.1 = .r ∨ p.1 = .l := forall_mem_pair (.inl rfl) (.inr rfl)
  exact ⟨fun p hp => Writes.of _ (exec_negReal p hp) fun _ _ h =>
      ⟨.none, negCalc_of_number (hneg p hp) h, quietSignal_none _⟩,
    fun p hp => Modifies.of _ (exec_sgn p hp) fun _ _ _ h =>
      ⟨.none, sgnCalc_of_numbers (hsgn p hp) h.1 h.2, quietSignal_none _⟩⟩

end Sys2Proof.Machine

/-!
Rounding to the precision (R305) and delivery (R306, R308). A rounded number is described by the half unit of its last place
that the exact number falls in: the leading bits `t`, the guard bit, and whether anything lies beyond it.
-/
namespace Sys2Proof.Machine

open Sys2Proof

/-! ## The cell of a number -/

/-- `x` lies in the lower or, with `g`, the upper half of the unit `2 ^ k` above `t`, and `r` says that it is not the
half's lower end. -/
def InCell (x : ℚ) (t : Nat) (k : Int) (g r : Bool) : Prop :=
  (2 * (t : ℚ) + g.toNat) * 2 ^ (k - 1) ≤ x ∧ x < (2 * (t : ℚ) + g.toNat + 1) * 2 ^ (k - 1) ∧
    (r = true ↔ x ≠ (2 * (t : ℚ) + g.toNat) * 2 ^ (k - 1))

/-- A rounded number from its leading bits, one place further left where they have grown beyond the precision. -/
def carried (p sig : Nat) (k : Int) (g r up : Bool) : Rounded :=
  if sig = 2 ^ p then ⟨2 ^ (p - 1), k + 1, g, r, up⟩ else ⟨sig, k, g, r, up⟩

/-- The rounding of the numbers of a cell. -/
def roundCell (p : Nat) (rc : BitVec 2) (neg : Bool) (t : Nat) (k : Int) (g r : Bool) : Rounded :=
  let up := roundsUp rc neg (t % 2 == 1) g r
  carried p (if up then t + 1 else t) k g r up

theorem two_zpow_half (k : Int) : (2 : ℚ) ^ k = 2 * 2 ^ (k - 1) := by
  rw [← zpow_one_add₀ two_ne_zero]
  congr 1
  omega

theorem roundsUp_iff : ∀ (rc : BitVec 2) (neg odd g r : Bool), roundsUp rc neg odd g r = true ↔
    (rc = 0 ∧ g = true ∧ (r = true ∨ odd = true)) ∨ (rc = 1 ∧ neg = false ∧ (g = true ∨ r = true)) ∨
      (rc = 2 ∧ neg = true ∧ (g = true ∨ r = true)) := by decide

section
variable {x : ℚ} {t : Nat} {k : Int} {g r : Bool}

/-- The parts of a cell in units of half the last place. -/
theorem InCell.parts (h : InCell x t k g r) : ∃ u : ℚ, 0 < u ∧ (2 : ℚ) ^ k = 2 * u ∧
    (2 * (t : ℚ) + g.toNat) * u ≤ x ∧ x < (2 * (t : ℚ) + g.toNat + 1) * u ∧
    (r = true ↔ x ≠ (2 * (t : ℚ) + g.toNat) * u) :=
  ⟨2 ^ (k - 1), by positivity, two_zpow_half k, h⟩

theorem InCell.bounds (h : InCell x t k g r) : (t : ℚ) * 2 ^ k ≤ x ∧ x < ((t : ℚ) + 1) * 2 ^ k := by
  obtain ⟨u, hu, hk, hlo, hhi, -⟩ := h.parts
  rw [hk]
  cases g <;> simp only [Bool.toNat_false, Bool.toNat_true, Nat.cast_zero, Nat.cast_one] at hlo hhi <;>
    constructor <;> linarith

theorem InCell.guard_iff (h : InCell x t k g r) : g = true ↔ (2 * (t : ℚ) + 1) * 2 ^ k ≤ 2 * x := by
  obtain ⟨u, hu, hk, hlo, hhi, -⟩ := h.parts
  rw [hk]
  cases g <;> simp only [Bool.toNat_false, Bool.toNat_true, Nat.cast_zero, Nat.cast_one] at hlo hhi
  · exact iff_of_false (by simp) (by linarith)
  · exact iff_of_true rfl (by linarith)

/-- At the lower end of the cell. -/
theorem InCell.rest_false_iff (h : InCell x t k g r) : r = false ↔
    (g = false ∧ x = (t : ℚ) * 2 ^ k) ∨ (g = true ∧ 2 * x = (2 * (t : ℚ) + 1) * 2 ^ k) := by
  obtain ⟨u, hu, hk, -, -, hr⟩ := h.parts
  rw [hk, ← Bool.not_eq_true, hr, not_not]
  cases g <;> simp
  · exact ⟨fun h => by linarith, fun h => by linarith⟩
  · exact ⟨fun h => by linarith, fun h => by linarith⟩

/-- At the number that the leading bits give. -/
theorem InCell.exact_iff (h : InCell x t k g r) : x = (t : ℚ) * 2 ^ k ↔ g = false ∧ r = false := by
  obtain ⟨u, hu, hk, hlo, hhi, hr⟩ := h.parts
  rw [hk]
  cases g <;> simp only [Bool.toNat_false, Bool.toNat_true, Nat.cast_zero, Nat.cast_one] at hlo hhi hr
  · rw [← Bool.not_eq_true r, hr, not_not]
    simp
    constructor <;> intro h <;> linarith
  · exact iff_of_false (by intro h; linarith) (by simp)

/-- The cell of a number of half units. -/
theorem InCell.of_halves {m : Nat} (hlo : (m : ℚ) * 2 ^ (k - 1) ≤ x) (hhi : x < ((m : ℚ) + 1) * 2 ^ (k - 1))
    (hr : r = true ↔ x ≠ (m : ℚ) * 2 ^ (k - 1)) : InCell x (m / 2) k (m % 2 == 1) r := by
  have hm : 2 * (m / 2) + (m % 2 == 1).toNat = m := by
    rcases Nat.mod_two_eq_zero_or_one m with h | h <;> rw [h] <;> simp only [Nat.reduceBEq, Bool.toNat_false, Bool.toNat_true] <;>
      omega
  have hcast : (2 * ((m / 2 : Nat) : ℚ) + (m % 2 == 1).toNat) = m := by exact_mod_cast hm
  rw [InCell, hcast]
  exact ⟨hlo, hhi, hr⟩

/-- Past the half or at it. -/
theorem InCell.half_lt_iff (h : InCell x t k g r) :
    (2 * (t : ℚ) + 1) * 2 ^ k < 2 * x ↔ g = true ∧ r = true := by
  rw [lt_iff_le_and_ne, ← h.guard_iff, and_congr_right_iff]
  rintro rfl
  have hrest := h.rest_false_iff
  rw [← Bool.not_eq_false, hrest]
  simp [eq_comm]

theorem InCell.half_eq_iff (h : InCell x t k g r) :
    (2 * (t : ℚ) + 1) * 2 ^ k = 2 * x ↔ g = true ∧ r = false := by
  constructor
  · intro heq
    have hg : g = true := h.guard_iff.2 heq.le
    exact ⟨hg, h.rest_false_iff.2 (.inr ⟨hg, heq.symm⟩)⟩
  · rintro ⟨rfl, hr⟩
    simpa [eq_comm] using h.rest_false_iff.1 hr

theorem InCell.rest_iff (h : InCell x t k g r) :
    r = true ↔ x ≠ (t : ℚ) * 2 ^ k ∧ 2 * x ≠ (2 * (t : ℚ) + 1) * 2 ^ k := by
  rw [Ne, Ne, h.exact_iff, @eq_comm _ (2 * x), h.half_eq_iff]
  cases g <;> cases r <;> decide

/-- Rounding the numbers of a cell is rounding by RC (R305). -/
theorem InCell.roundsUp_iff (h : InCell x t k g r) (rc : BitVec 2) (neg : Bool) :
    roundsUp rc neg (t % 2 == 1) g r = true ↔
      (rc = 0 ∧ ((2 * (t : ℚ) + 1) * 2 ^ k < 2 * x ∨ ((2 * (t : ℚ) + 1) * 2 ^ k = 2 * x ∧ t % 2 = 1))) ∨
        (rc = 1 ∧ neg = false ∧ x ≠ (t : ℚ) * 2 ^ k) ∨ (rc = 2 ∧ neg = true ∧ x ≠ (t : ℚ) * 2 ^ k) := by
  rw [Machine.roundsUp_iff, h.half_lt_iff, h.half_eq_iff, Ne, h.exact_iff, beq_iff_eq]
  cases g <;> cases r <;> simp

end

section
variable {p sig : Nat} {k : Int} {g r up : Bool}

theorem carried_bits : (carried p sig k g r up).guard = g ∧ (carried p sig k g r up).rest = r ∧
    (carried p sig k g r up).up = up := by
  unfold carried
  split <;> exact ⟨rfl, rfl, rfl⟩

theorem carried_value (hp : 1 ≤ p) :
    ((carried p sig k g r up).sig : ℚ) * 2 ^ (carried p sig k g r up).exp = (sig : ℚ) * 2 ^ k := by
  unfold carried
  split
  · next hcarry =>
    rw [hcarry, zpow_add_one₀ two_ne_zero, ← Nat.sub_add_cancel hp, Nat.add_sub_cancel]
    push_cast
    ring
  · rfl

theorem carried_sig (hp : 1 ≤ p) (hlo : 2 ^ (p - 1) ≤ sig) (hhi : sig ≤ 2 ^ p) :
    2 ^ (p - 1) ≤ (carried p sig k g r up).sig ∧ (carried p sig k g r up).sig < 2 ^ p := by
  unfold carried
  split
  · exact ⟨le_refl _, Nat.pow_lt_pow_right (by omega) (by omega)⟩
  · next hcarry => exact ⟨hlo, lt_of_le_of_ne hhi hcarry⟩

theorem carried_exp : k ≤ (carried p sig k g r up).exp ∧ (carried p sig k g r up).exp ≤ k + 1 := by
  unfold carried
  split <;> constructor <;> dsimp only <;> omega

end

section
variable {p : Nat} {rc : BitVec 2} {neg : Bool} {t : Nat} {k : Int} {g r : Bool}

theorem roundCell_bits : (roundCell p rc neg t k g r).guard = g ∧ (roundCell p rc neg t k g r).rest = r ∧
    (roundCell p rc neg t k g r).up = roundsUp rc neg (t % 2 == 1) g r := carried_bits

/-- The value of a rounded cell: one unit more where it was rounded up. -/
theorem roundCell_value (hp : 2 ≤ p) :
    ((roundCell p rc neg t k g r).sig : ℚ) * 2 ^ (roundCell p rc neg t k g r).exp =
      (if (roundCell p rc neg t k g r).up then (t : ℚ) + 1 else t) * 2 ^ k := by
  rw [roundCell_bits.2.2, roundCell, carried_value (by omega)]
  split <;> simp

theorem roundCell_sig (hlo : 2 ^ (p - 1) ≤ t) (hhi : t < 2 ^ p) (hp : 2 ≤ p) :
    2 ^ (p - 1) ≤ (roundCell p rc neg t k g r).sig ∧ (roundCell p rc neg t k g r).sig < 2 ^ p :=
  carried_sig (by omega) (by split <;> omega) (by split <;> omega)

theorem InCell.roundsTo {x : ℚ} (h : InCell x t k g r) (hlo : 2 ^ (p - 1) ≤ t) (hhi : t < 2 ^ p) (hp : 2 ≤ p) :
    RoundsTo p rc neg x (roundCell p rc neg t k g r) := by
  obtain ⟨hguard, hrest, hup⟩ := roundCell_bits (p := p) (rc := rc) (neg := neg) (t := t) (k := k) (g := g) (r := r)
  refine ⟨t, k, hlo, hhi, h.bounds.1, h.bounds.2, ?_, ?_, ?_, roundCell_value hp, roundCell_sig hlo hhi hp⟩
  · rw [hguard]; exact h.guard_iff
  · rw [hrest]; exact h.rest_iff
  · rw [hup]; exact h.roundsUp_iff rc neg

/-- Nothing is lost just where the rounded number is the exact one. -/
theorem InCell.exact_iff_rounded {x : ℚ} (h : InCell x t k g r) :
    (g || r) = false ↔ x = (if roundsUp rc neg (t % 2 == 1) g r then (t : ℚ) + 1 else t) * 2 ^ k := by
  rw [Bool.or_eq_false_iff, ← h.exact_iff]
  split
  · next hround =>
    have hne : x ≠ (t : ℚ) * 2 ^ k := by
      rw [Ne, h.exact_iff]
      rintro ⟨rfl, rfl⟩
      revert hround
      simp [Machine.roundsUp_iff]
    exact iff_of_false hne h.bounds.2.ne
  · exact Iff.rfl

theorem InCell.inexact_iff {x : ℚ} (h : InCell x t k g r) (hp : 2 ≤ p) :
    (roundCell p rc neg t k g r).inexact = false ↔
      x = ((roundCell p rc neg t k g r).sig : ℚ) * 2 ^ (roundCell p rc neg t k g r).exp := by
  obtain ⟨hguard, hrest, hup⟩ := roundCell_bits (p := p) (rc := rc) (neg := neg) (t := t) (k := k) (g := g) (r := r)
  rw [roundCell_value hp, Rounded.inexact, hguard, hrest, hup]
  exact h.exact_iff_rounded

end

/-! ## The cell that rounding finds -/

/-- The bits below the precision of `q`, extended as `roundSig` extends it. -/
def dropped (q : Nat) : Nat := Nat.log2 q + 3

section
variable {p q : Nat} {e : Int} {sticky : Bool} {x : ℚ}

theorem log2_mul_two_pow (hq : q ≠ 0) (n : Nat) : Nat.log2 (q * 2 ^ n) = Nat.log2 q + n := by
  rw [Nat.log2_eq_log_two, Nat.log2_eq_log_two]
  induction n with
  | zero => simp
  | succ n ih => rw [pow_succ, ← Nat.mul_assoc, Nat.log_mul_base (by omega) (by positivity), ih, Nat.add_assoc]

theorem log2_long (hq : q ≠ 0) (p : Nat) : Nat.log2 (q * 2 ^ (p + 2)) + 1 - p = dropped q := by
  rw [log2_mul_two_pow hq, dropped]
  omega

theorem roundSig_eq (hq : q ≠ 0) (p : Nat) (rc : BitVec 2) (neg : Bool) (e : Int) (sticky : Bool) :
    roundSig p rc neg q e sticky =
      roundCell p rc neg (q * 2 ^ (p + 2) / 2 ^ dropped q) (e + Nat.log2 q + 1 - p)
        (q * 2 ^ (p + 2) / 2 ^ (dropped q - 1) % 2 == 1) (q * 2 ^ (p + 2) % 2 ^ (dropped q - 1) != 0 || sticky) := by
  have hexp : e - (p + 2 : Nat) + dropped q = e + Nat.log2 q + 1 - p := by
    unfold dropped
    push_cast
    ring
  unfold roundSig
  dsimp only
  rw [log2_long hq, hexp]
  rfl

/-- The leading bits of a number that `roundSig` finds have the precision. -/
theorem leading_bounds (hq : q ≠ 0) (hp : 2 ≤ p) :
    2 ^ (p - 1) ≤ q * 2 ^ (p + 2) / 2 ^ dropped q ∧ q * 2 ^ (p + 2) / 2 ^ dropped q < 2 ^ p := by
  have hlo := Nat.log2_self_le hq
  have hhi := Nat.lt_log2_self (n := q)
  have hpos : 0 < 2 ^ dropped q := by positivity
  constructor
  · rw [Nat.le_div_iff_mul_le hpos]
    calc 2 ^ (p - 1) * 2 ^ dropped q = 2 ^ Nat.log2 q * 2 ^ (p + 2) := by
          rw [← pow_add, ← pow_add, dropped]; congr 1; omega
      _ ≤ q * 2 ^ (p + 2) := Nat.mul_le_mul_right _ hlo
  · rw [Nat.div_lt_iff_lt_mul hpos]
    calc q * 2 ^ (p + 2) < 2 ^ (Nat.log2 q + 1) * 2 ^ (p + 2) := by gcongr
      _ = 2 ^ p * 2 ^ dropped q := by rw [← pow_add, ← pow_add, dropped]; congr 1; omega

/-- What `roundSig` is asked about, in the units of its long number. -/
theorem Stands.units (h : Stands p q e sticky x) :
    ((q * 2 ^ (p + 2) : Nat) : ℚ) * 2 ^ (e - (p + 2 : Nat)) ≤ x ∧
      (sticky = false → x = ((q * 2 ^ (p + 2) : Nat) : ℚ) * 2 ^ (e - (p + 2 : Nat))) ∧
      (sticky = true → ((q * 2 ^ (p + 2) : Nat) : ℚ) * 2 ^ (e - (p + 2 : Nat)) < x ∧
        x < (((q + 1) * 2 ^ (p + 2) : Nat) : ℚ) * 2 ^ (e - (p + 2 : Nat))) := by
  have hunit : ∀ n : Nat, ((n * 2 ^ (p + 2) : Nat) : ℚ) * 2 ^ (e - (p + 2 : Nat)) = n * 2 ^ e := by
    intro n
    rw [zpow_sub₀ two_ne_zero, zpow_natCast]
    push_cast
    field_simp
  simp only [hunit]
  obtain ⟨-, hx⟩ := h
  cases sticky
  · exact ⟨(show x = _ from hx).ge, fun _ => hx, nofun⟩
  · obtain ⟨hlo, hhi, -⟩ := (show _ ∧ _ ∧ _ from hx)
    exact ⟨hlo.le, nofun, fun _ => ⟨hlo, by push_cast; exact hhi⟩⟩

/-- A half unit of the last place is a whole number of units of `q` where `q` is long enough, so that the numbers up to
`q + 1` lie in one cell. -/
theorem long_succ_le (hq : q ≠ 0) (h : 2 ^ (p + 1) ≤ q) :
    (q + 1) * 2 ^ (p + 2) ≤ (q * 2 ^ (p + 2) / 2 ^ (dropped q - 1) + 1) * 2 ^ (dropped q - 1) := by
  have hlog : p + 1 ≤ Nat.log2 q := (Nat.le_log2 hq).2 h
  have hhalf : 2 ^ (dropped q - 1) = 2 ^ (Nat.log2 q - p) * 2 ^ (p + 2) := by
    rw [← pow_add, dropped]
    congr 1
    omega
  rw [hhalf, Nat.mul_div_mul_right _ _ (by positivity), ← Nat.mul_assoc]
  refine Nat.mul_le_mul_right _ ?_
  exact Nat.succ_le_of_lt (Nat.lt_mul_of_div_lt (Nat.lt_succ_self _) (by positivity))

theorem Stands.inCell (h : Stands p q e sticky x) :
    InCell x (q * 2 ^ (p + 2) / 2 ^ dropped q) (e + Nat.log2 q + 1 - p)
      (q * 2 ^ (p + 2) / 2 ^ (dropped q - 1) % 2 == 1) (q * 2 ^ (p + 2) % 2 ^ (dropped q - 1) != 0 || sticky) := by
  have hhalves : q * 2 ^ (p + 2) / 2 ^ dropped q = q * 2 ^ (p + 2) / 2 ^ (dropped q - 1) / 2 := by
    rw [Nat.div_div_eq_div_mul, ← pow_succ]
    rfl
  have hunit : (2 : ℚ) ^ (e + Nat.log2 q + 1 - p - 1) = ((2 ^ (dropped q - 1) : Nat) : ℚ) * 2 ^ (e - (p + 2 : Nat)) := by
    rw [Nat.cast_pow, Nat.cast_ofNat, ← zpow_natCast, ← zpow_add₀ two_ne_zero, dropped]
    congr 1
    omega
  have hw : (0 : ℚ) < 2 ^ (e - (p + 2 : Nat)) := by positivity
  have hmod := Nat.div_add_mod (q * 2 ^ (p + 2)) (2 ^ (dropped q - 1))
  have hlt := Nat.mod_lt (q * 2 ^ (p + 2)) (show 2 ^ (dropped q - 1) > 0 by positivity)
  obtain ⟨hlo, hexact, hsticky⟩ := h.units
  obtain ⟨hq, hlong⟩ := h
  have hsucc : sticky = true → _ := fun hs => long_succ_le (p := p) hq (by subst hs; exact hlong.2.2)
  rw [hhalves]
  refine InCell.of_halves ?_ ?_ ?_ <;> rw [hunit]
  · refine le_trans ?_ hlo
    rw [← mul_assoc]
    refine mul_le_mul_of_nonneg_right ?_ hw.le
    norm_cast
    exact Nat.div_mul_le_self _ _
  · rw [← mul_assoc]
    cases sticky
    · rw [hexact rfl]
      refine mul_lt_mul_of_pos_right ?_ hw
      norm_cast
      rw [Nat.add_mul, Nat.one_mul, Nat.mul_comm _ (2 ^ (dropped q - 1))]
      omega
    · refine (hsticky rfl).2.trans_le (mul_le_mul_of_nonneg_right ?_ hw.le)
      exact_mod_cast hsucc rfl
  · rw [← mul_assoc]
    cases sticky
    · rw [hexact rfl, Ne, mul_left_inj' hw.ne', Bool.or_false, bne_iff_ne, Ne, not_iff_not]
      norm_cast
      rw [Nat.mul_comm _ (2 ^ (dropped q - 1))]
      omega
    · refine iff_of_true (Bool.or_true _) (ne_of_gt (lt_of_le_of_lt (mul_le_mul_of_nonneg_right ?_ hw.le) (hsticky rfl).1))
      norm_cast
      exact Nat.div_mul_le_self _ _

theorem Stands.roundsTo (h : Stands p q e sticky x) (hp : 2 ≤ p) (rc : BitVec 2) (neg : Bool) :
    RoundsTo p rc neg x (roundSig p rc neg q e sticky) := by
  obtain ⟨hlo, hhi⟩ := leading_bounds h.1 hp
  rw [roundSig_eq h.1]
  exact h.inCell.roundsTo hlo hhi hp

theorem Stands.inexact_iff (h : Stands p q e sticky x) (hp : 2 ≤ p) (rc : BitVec 2) (neg : Bool) :
    (roundSig p rc neg q e sticky).inexact = false ↔
      x = ((roundSig p rc neg q e sticky).sig : ℚ) * 2 ^ (roundSig p rc neg q e sticky).exp := by
  rw [roundSig_eq h.1]
  exact h.inCell.inexact_iff hp

/-- The rounded number has the precision, and its exponent is the exact number's or one more. -/
theorem roundSig_bounds (hq : q ≠ 0) (hp : 2 ≤ p) (rc : BitVec 2) (neg : Bool) :
    (2 ^ (p - 1) ≤ (roundSig p rc neg q e sticky).sig ∧ (roundSig p rc neg q e sticky).sig < 2 ^ p) ∧
      e + Nat.log2 q + 1 - p ≤ (roundSig p rc neg q e sticky).exp ∧
        (roundSig p rc neg q e sticky).exp ≤ e + Nat.log2 q + 1 - p + 1 := by
  obtain ⟨hlo, hhi⟩ := leading_bounds hq hp
  rw [roundSig_eq hq]
  exact ⟨roundCell_sig hlo hhi hp, carried_exp⟩

end

/-! ## Sizes -/

/-- A number with its leading bit at place `a` is below `2 ^ b` just where `a` is below `b`. -/
theorem lt_two_zpow_iff {y : ℚ} {a b : Int} (hlo : (2 : ℚ) ^ a ≤ y) (hhi : y < 2 ^ (a + 1)) : y < 2 ^ b ↔ a < b := by
  constructor
  · intro h
    exact (zpow_lt_zpow_iff_right₀ one_lt_two).1 (hlo.trans_lt h)
  · intro h
    exact hhi.trans_le (zpow_le_zpow_right₀ one_le_two h)

theorem two_zpow_le_iff {y : ℚ} {a b : Int} (hlo : (2 : ℚ) ^ a ≤ y) (hhi : y < 2 ^ (a + 1)) : 2 ^ b ≤ y ↔ b ≤ a := by
  rw [← not_lt, lt_two_zpow_iff hlo hhi, not_lt]

section
variable {p : Nat} {e : Int}

/-- The leading bit of a number. -/
theorem natCast_mul_bounds {n m : Nat} (hlo : 2 ^ n ≤ m) (hhi : m < 2 ^ (n + 1)) :
    (2 : ℚ) ^ (e + n) ≤ (m : ℚ) * 2 ^ e ∧ (m : ℚ) * 2 ^ e < 2 ^ (e + n + 1) ∧
      ((m : ℚ) + 1) * 2 ^ e ≤ 2 ^ (e + n + 1) := by
  have hunit : (0 : ℚ) < 2 ^ e := by positivity
  have hlo' : (2 : ℚ) ^ n ≤ m := by exact_mod_cast hlo
  have hhi' : (m : ℚ) + 1 ≤ 2 ^ (n + 1) := by exact_mod_cast hhi
  have hexp : (2 : ℚ) ^ (e + n + 1) = 2 ^ (n + 1) * 2 ^ e := by
    rw [← zpow_natCast, ← zpow_add₀ two_ne_zero]
    congr 1
    push_cast
    ring
  rw [hexp, zpow_add₀ two_ne_zero, mul_comm _ ((2 : ℚ) ^ (n : Int)), zpow_natCast]
  exact ⟨mul_le_mul_of_nonneg_right hlo' hunit.le, mul_lt_mul_of_pos_right (by linarith) hunit,
    mul_le_mul_of_nonneg_right hhi' hunit.le⟩

/-- The leading bit of a number of the precision. -/
theorem significand_bounds {sig : Nat} (hp : 1 ≤ p) (hlo : 2 ^ (p - 1) ≤ sig) (hhi : sig < 2 ^ p) :
    (2 : ℚ) ^ (e + (p - 1 : Nat)) ≤ (sig : ℚ) * 2 ^ e ∧ (sig : ℚ) * 2 ^ e < 2 ^ (e + (p - 1 : Nat) + 1) := by
  obtain ⟨h1, h2, -⟩ := natCast_mul_bounds (e := e) hlo (by rwa [Nat.sub_add_cancel hp])
  exact ⟨h1, h2⟩

theorem Stands.bounds {q : Nat} {sticky : Bool} {x : ℚ} (h : Stands p q e sticky x) :
    (2 : ℚ) ^ (e + Nat.log2 q) ≤ x ∧ x < 2 ^ (e + Nat.log2 q + 1) := by
  obtain ⟨hq, hx⟩ := h
  obtain ⟨hlo, hhi, hnext⟩ := natCast_mul_bounds (e := e) (Nat.log2_self_le hq) Nat.lt_log2_self
  cases sticky
  · rw [show x = _ from hx]
    exact ⟨hlo, hhi⟩
  · obtain ⟨h1, h2, -⟩ := (show _ ∧ _ ∧ _ from hx)
    exact ⟨hlo.trans h1.le, h2.trans_le hnext⟩

end

/-! ## Delivery -/

theorem format_facts : ∀ f ∈ [Fmt.real, Fmt.long], 2 ≤ f.prec ∧ f.emax = 2 * f.bias + 1 ∧ f.emax < 2 ^ f.eBits := by
  decide

section
variable {f : Fmt} {w q : Nat} {rc : BitVec 2} {neg : Bool} {e : Int} {sticky : Bool}

theorem deliver_underflow (h : e + Nat.log2 q < 1 - (f.bias : Int)) :
    f.deliver w rc neg q e sticky =
      .store (f.pack neg (roundSig f.prec rc neg q e sticky).sig ((roundSig f.prec rc neg q e sticky).exp + w))
        (roundSig f.prec rc neg q e sticky).inexact true false (roundSig f.prec rc neg q e sticky).guard
        (roundSig f.prec rc neg q e sticky).rest (roundSig f.prec rc neg q e sticky).up := if_pos h

theorem deliver_overflow (h : ¬ e + Nat.log2 q < 1 - (f.bias : Int))
    (ho : (roundSig f.prec rc neg q e sticky).exp + (f.prec - 1 : Nat) > f.bias) :
    f.deliver w rc neg q e sticky =
      .store (f.pack neg (roundSig f.prec rc neg q e sticky).sig ((roundSig f.prec rc neg q e sticky).exp - w))
        (roundSig f.prec rc neg q e sticky).inexact false true (roundSig f.prec rc neg q e sticky).guard
        (roundSig f.prec rc neg q e sticky).rest (roundSig f.prec rc neg q e sticky).up :=
  (if_neg h).trans (if_pos ho)

theorem deliver_inRange (h : ¬ e + Nat.log2 q < 1 - (f.bias : Int))
    (ho : ¬ (roundSig f.prec rc neg q e sticky).exp + (f.prec - 1 : Nat) > f.bias) :
    f.deliver w rc neg q e sticky =
      .store (f.pack neg (roundSig f.prec rc neg q e sticky).sig (roundSig f.prec rc neg q e sticky).exp)
        (roundSig f.prec rc neg q e sticky).inexact false false (roundSig f.prec rc neg q e sticky).guard
        (roundSig f.prec rc neg q e sticky).rest (roundSig f.prec rc neg q e sticky).up :=
  (if_neg h).trans (if_neg ho)

/-- The rounded number is above the largest one of the format just where its exponent is. -/
theorem roundSig_overflows_iff (hq : q ≠ 0) (hp : 2 ≤ f.prec) :
    (2 : ℚ) ^ ((f.bias : Int) + 1) ≤
        ((roundSig f.prec rc neg q e sticky).sig : ℚ) * 2 ^ (roundSig f.prec rc neg q e sticky).exp ↔
      (roundSig f.prec rc neg q e sticky).exp + (f.prec - 1 : Nat) > f.bias := by
  obtain ⟨⟨hlo, hhi⟩, -⟩ := roundSig_bounds (e := e) (sticky := sticky) hq hp rc neg
  obtain ⟨h1, h2⟩ := significand_bounds (e := (roundSig f.prec rc neg q e sticky).exp) (by omega) hlo hhi
  rw [two_zpow_le_iff h1 h2]
  omega

end

/-! ## Packing -/

section
variable {f : Fmt} {neg : Bool} {a b : Nat}

theorem join_lt (ha : a < 2 ^ f.eBits) (hb : b < 2 ^ (f.prec - 1)) :
    a * 2 ^ (f.prec - 1) + b < 2 ^ (f.prec - 1 + f.eBits) := by
  rw [pow_add, Nat.mul_comm (2 ^ (f.prec - 1))]
  calc a * 2 ^ (f.prec - 1) + b < a * 2 ^ (f.prec - 1) + 2 ^ (f.prec - 1) := by omega
    _ = (a + 1) * 2 ^ (f.prec - 1) := by ring
    _ ≤ 2 ^ f.eBits * 2 ^ (f.prec - 1) := Nat.mul_le_mul_right _ ha

theorem join_eq (hp : 1 ≤ f.prec) :
    f.join neg a b = 2 ^ (f.prec - 1 + f.eBits) * neg.toNat + (a * 2 ^ (f.prec - 1) + b) := by
  rw [Fmt.join, show f.prec + f.eBits - 1 = f.prec - 1 + f.eBits by omega]
  cases neg <;> simp [Nat.add_assoc]

/-- The fields of a joined pattern (R300). -/
theorem join_fields (hp : 1 ≤ f.prec) (ha : a < 2 ^ f.eBits) (hb : b < 2 ^ (f.prec - 1)) :
    f.sign (f.join neg a b) = neg ∧ f.expo (f.join neg a b) = a ∧ f.frac (f.join neg a b) = b := by
  have hlt := join_lt (f := f) ha hb
  have hpos : 0 < 2 ^ (f.prec - 1) := by positivity
  rw [join_eq hp, Fmt.sign, Fmt.expo, Fmt.frac, show f.prec + f.eBits - 1 = f.prec - 1 + f.eBits by omega]
  refine ⟨?_, ?_, ?_⟩
  · rw [Nat.mul_add_div (by positivity), Nat.div_eq_of_lt hlt]
    cases neg <;> rfl
  · rw [pow_add, Nat.mul_assoc, Nat.mul_add_div hpos, Nat.mul_comm a, Nat.mul_add_div hpos, Nat.div_eq_of_lt hb,
      Nat.add_zero, Nat.mul_add_mod, Nat.mod_eq_of_lt ha]
  · rw [pow_add, Nat.mul_assoc, Nat.mul_add_mod, Nat.mul_comm a, Nat.mul_add_mod, Nat.mod_eq_of_lt hb]

theorem join_lt_width (hp : 1 ≤ f.prec) (ha : a < 2 ^ f.eBits) (hb : b < 2 ^ (f.prec - 1)) :
    f.join neg a b < 2 ^ (f.prec + f.eBits) := by
  have hlt := join_lt (f := f) ha hb
  have hpow : 2 ^ (f.prec + f.eBits) = 2 * 2 ^ (f.prec - 1 + f.eBits) := by
    rw [← pow_succ']
    congr 1
    omega
  rw [join_eq hp, hpow]
  cases neg <;> simp only [Bool.toNat_false, Bool.toNat_true] <;> omega

/-- A pattern is made of its fields. -/
theorem join_of_fields {x : Nat} (hp : 1 ≤ f.prec) (hx : x < 2 ^ (f.prec + f.eBits)) :
    f.join (f.sign x) (f.expo x) (f.frac x) = x := by
  have hpow : 2 ^ (f.prec + f.eBits) = 2 ^ (f.prec + f.eBits - 1) * 2 := by
    rw [← pow_succ]
    congr 1
    omega
  have hsign : (f.sign x).toNat = x / 2 ^ (f.prec + f.eBits - 1) := by
    have hdiv : x / 2 ^ (f.prec + f.eBits - 1) < 2 := Nat.div_lt_of_lt_mul (hpow ▸ hx)
    rw [Fmt.sign]
    interval_cases x / 2 ^ (f.prec + f.eBits - 1) <;> rfl
  rw [show f.join (f.sign x) (f.expo x) (f.frac x) = f.withSign (f.sign x) x from rfl, Fmt.withSign_eq _ _ _ hp, hsign,
    Nat.div_add_mod]

/-- The value of a pattern with a normalized exponent. -/
theorem value_of_normalized {x : Nat} (h0 : f.expo x ≠ 0) (h1 : f.expo x ≠ f.emax) :
    f.value x = .fin (f.sign x) (2 ^ (f.prec - 1) + f.frac x) (f.expo x - f.bias - (f.prec - 1 : Nat)) :=
  (if_neg h1).trans (if_neg h0)

/-- What is packed is the number itself, its sign and its significand. -/
theorem pack_value (hf : f ∈ [Fmt.real, Fmt.long]) {sig v : Nat} {e : Int} (hlo : 2 ^ (f.prec - 1) ≤ sig)
    (hhi : sig < 2 ^ f.prec) (h : f.pack neg sig e = some v) :
    v < 2 ^ (f.prec + f.eBits) ∧ f.value v = .fin neg sig e := by
  obtain ⟨hp, -, hemax⟩ := format_facts f hf
  obtain ⟨⟨hone, hmax⟩, rfl⟩ := Option.ite_some_none_eq_some.1 h
  have hpow : 2 ^ f.prec = 2 * 2 ^ (f.prec - 1) := by
    rw [← pow_succ']
    congr 1
    omega
  have ha : (e + (f.prec - 1 : Nat) + f.bias).toNat < 2 ^ f.eBits := by omega
  have hb : sig - 2 ^ (f.prec - 1) < 2 ^ (f.prec - 1) := by omega
  obtain ⟨hs, he, hm⟩ := join_fields (neg := neg) (by omega : 1 ≤ f.prec) ha hb
  refine ⟨join_lt_width (by omega) ha hb, ?_⟩
  rw [value_of_normalized (by rw [he]; omega) (by rw [he]; omega), hs, he, hm]
  congr 1 <;> omega

/-- A number of the precision is packed just where the format holds it normalized. -/
theorem pack_eq_none_iff (hf : f ∈ [Fmt.real, Fmt.long]) {sig : Nat} {e : Int} (hlo : 2 ^ (f.prec - 1) ≤ sig)
    (hhi : sig < 2 ^ f.prec) :
    f.pack neg sig e = none ↔
      (sig : ℚ) * 2 ^ e < 2 ^ (1 - (f.bias : Int)) ∨ (2 : ℚ) ^ ((f.bias : Int) + 1) ≤ (sig : ℚ) * 2 ^ e := by
  obtain ⟨hp, hbias, -⟩ := format_facts f hf
  obtain ⟨h1, h2⟩ := significand_bounds (e := e) (by omega) hlo hhi
  rw [lt_two_zpow_iff h1 h2, two_zpow_le_iff h1 h2]
  unfold Fmt.pack
  rw [ite_eq_right_iff]
  simp only [reduceCtorEq, imp_false, not_and_or]
  omega

end

/-! ## Exact results -/

section
variable {p sig k : Nat} {e : Int}

theorem log2_of_bounds {n : Nat} (hlo : 2 ^ n ≤ sig) (hhi : sig < 2 ^ (n + 1)) : Nat.log2 sig = n :=
  (Nat.log2_eq_iff (Nat.ne_of_gt (lt_of_lt_of_le (by positivity) hlo))).2 ⟨hlo, hhi⟩

/-- A number of the precision is rounded to itself, however its magnitude is written. -/
theorem roundSig_exact (hp : 1 ≤ p) (hlo : 2 ^ (p - 1) ≤ sig) (hhi : sig < 2 ^ p) (rc : BitVec 2) (neg : Bool) :
    roundSig p rc neg (sig * 2 ^ k) (e - k) false = ⟨sig, e, false, false, false⟩ := by
  have hsig : sig ≠ 0 := Nat.ne_of_gt (lt_of_lt_of_le (by positivity) hlo)
  have hlog : Nat.log2 (sig * 2 ^ k) = p - 1 + k := by
    rw [log2_mul_two_pow hsig, log2_of_bounds hlo (by rwa [Nat.sub_add_cancel hp])]
  have hlong : sig * 2 ^ k * 2 ^ (p + 2) = sig * 2 ^ dropped (sig * 2 ^ k) := by
    rw [Nat.mul_assoc, ← pow_add, dropped, hlog]
    congr 2
    omega
  have hhalf : 2 ^ dropped (sig * 2 ^ k) = 2 * 2 ^ (dropped (sig * 2 ^ k) - 1) := by
    rw [← pow_succ']
    rfl
  have hpos : 0 < 2 ^ (dropped (sig * 2 ^ k) - 1) := by positivity
  have hleading : sig * 2 ^ k * 2 ^ (p + 2) / 2 ^ dropped (sig * 2 ^ k) = sig := by
    rw [hlong, Nat.mul_div_cancel _ (by positivity)]
  have hguard : (sig * 2 ^ k * 2 ^ (p + 2) / 2 ^ (dropped (sig * 2 ^ k) - 1) % 2 == 1) = false := by
    rw [hlong, hhalf, ← Nat.mul_assoc, Nat.mul_div_cancel _ hpos, Nat.mul_mod_left]
    rfl
  have hrest : (sig * 2 ^ k * 2 ^ (p + 2) % 2 ^ (dropped (sig * 2 ^ k) - 1) != 0 || false) = false := by
    rw [hlong, hhalf, ← Nat.mul_assoc, Nat.mul_mod_left]
    rfl
  have hup : roundsUp rc neg (sig % 2 == 1) false false = false := by
    rw [← Bool.not_eq_true, roundsUp_iff]
    simp
  have hexp : e - k + (Nat.log2 (sig * 2 ^ k) : Nat) + 1 - p = e := by
    rw [hlog]
    omega
  rw [roundSig_eq (by positivity), hleading, hguard, hrest, hexp, roundCell]
  simp only [hup]
  exact if_neg (by simpa using hhi.ne)

end

/-- A normalized pattern's number is delivered as that pattern. -/
theorem deliver_normalized {f : Fmt} (hf : f ∈ [Fmt.real, Fmt.long]) (w : Nat) (rc : BitVec 2) {x : Nat} (k : Nat)
    (hx : x < 2 ^ (f.prec + f.eBits)) (h0 : 0 < f.expo x) (h1 : f.expo x < f.emax) :
    f.deliver w rc (f.sign x) ((2 ^ (f.prec - 1) + f.frac x) * 2 ^ k)
      ((f.expo x : Int) - f.bias - (f.prec - 1 : Nat) - k) false = .exact x := by
  obtain ⟨hp, hbias, -⟩ := format_facts f hf
  have hfrac : f.frac x < 2 ^ (f.prec - 1) := Nat.mod_lt _ (by positivity)
  have hpow : 2 ^ f.prec = 2 * 2 ^ (f.prec - 1) := by
    rw [← pow_succ']
    congr 1
    omega
  have hlo : 2 ^ (f.prec - 1) ≤ 2 ^ (f.prec - 1) + f.frac x := by omega
  have hhi : 2 ^ (f.prec - 1) + f.frac x < 2 ^ f.prec := by omega
  have hlog : Nat.log2 ((2 ^ (f.prec - 1) + f.frac x) * 2 ^ k) = f.prec - 1 + k := by
    rw [log2_mul_two_pow (by positivity), log2_of_bounds hlo (by rw [Nat.sub_add_cancel (by omega)]; exact hhi)]
  have hround := roundSig_exact (k := k) (e := (f.expo x : Int) - f.bias - (f.prec - 1 : Nat)) (by omega : 1 ≤ f.prec)
    hlo hhi rc (f.sign x)
  have hfield : (f.expo x : Int) - f.bias - (f.prec - 1 : Nat) + (f.prec - 1 : Nat) + f.bias = f.expo x := by ring
  have hpack : f.pack (f.sign x) (2 ^ (f.prec - 1) + f.frac x) ((f.expo x : Int) - f.bias - (f.prec - 1 : Nat)) =
      some x := by
    unfold Fmt.pack
    simp only [hfield]
    rw [if_pos (by omega), Nat.add_sub_cancel_left, Int.toNat_natCast, join_of_fields (by omega) hx]
  rw [deliver_inRange (by rw [hlog]; omega) (by rw [hround]; dsimp only; omega), hround]
  dsimp only
  rw [hpack]
  rfl

/-- Settles O35. -/
theorem rounding : Obligations.Rounding := by
  refine ⟨fun p rc neg q e sticky x hp h => ⟨h.roundsTo hp rc neg, h.inexact_iff hp rc neg⟩,
    fun f hf w rc neg q e sticky x h => ?deliver,
    fun f hf neg sig e hlo hhi => ⟨fun v h => pack_value hf hlo hhi h, pack_eq_none_iff hf hlo hhi⟩,
    fun f hf w rc x k hx h0 h1 => deliver_normalized hf w rc k hx h0 h1⟩
  case deliver =>
    obtain ⟨hp, -, -⟩ := format_facts f hf
    have hsmall : x < 2 ^ (1 - (f.bias : Int)) ↔ e + Nat.log2 q < 1 - (f.bias : Int) := lt_two_zpow_iff h.bounds.1 h.bounds.2
    have hlarge := roundSig_overflows_iff (e := e) (sticky := sticky) (rc := rc) (neg := neg) h.1 hp
    dsimp only
    rw [← not_lt, hsmall, ← not_le (a := (2 : ℚ) ^ ((f.bias : Int) + 1)), hlarge]
    exact ⟨deliver_underflow, deliver_overflow, deliver_inRange⟩

end Sys2Proof.Machine

/-!
Conversions (R344 to R353): whole numbers and reals to reals, and reals rounded to a Word.
-/
namespace Sys2Proof.Machine

open Sys2Proof

/-! ## To a real -/

theorem word_in_range : ∀ f ∈ [Fmt.real, Fmt.long], 33 ≤ f.bias := by decide

/-- A whole number of a Word's size is never outside the range of a real. -/
theorem ofInt_packs {f : Fmt} (hf : f ∈ [Fmt.real, Fmt.long]) (rc : BitVec 2) (neg : Bool) {n : Nat} (h0 : n ≠ 0)
    (h : n ≤ 2 ^ 31) :
    ∃ v, f.pack neg (roundSig f.prec rc neg n 0 false).sig (roundSig f.prec rc neg n 0 false).exp = some v := by
  obtain ⟨hp, hemax, -⟩ := format_facts f hf
  have hbias := word_in_range f hf
  have hlog : Nat.log2 n < 32 := (Nat.log2_lt h0).2 (by omega)
  obtain ⟨-, hlo, hhi⟩ := roundSig_bounds (e := 0) (sticky := false) h0 hp rc neg
  exact ⟨_, if_pos (by omega)⟩

/-- Settles O38. -/
theorem conversionsToReal : Obligations.ConversionsToReal := by
  refine ⟨fun p hp v ix g r u => Writes.of_fpCalc (exec_intToReal p hp),
    fun p hp v ix g r u => Writes.of_fpCalc (exec_realToReal p hp),
    fun f hf w rc i neg m e => ⟨rfl, fun h0 hlo hhi => ?_, rfl, rfl⟩⟩
  obtain ⟨v, hv⟩ := ofInt_packs hf rc (decide (i < 0)) (Int.natAbs_ne_zero.2 h0) (by omega)
  refine ⟨v, hv, ?_⟩
  rw [← hv]
  exact if_neg h0

/-! ## To a Word -/

/-- The whole number that the numbers of a cell of unit 1 are rounded to. -/
def roundedWhole (rc : BitVec 2) (neg : Bool) (t : Nat) (g r : Bool) : Int :=
  (if roundsUp rc neg (t % 2 == 1) g r then t + 1 else t : Nat)

section
variable {y : ℚ} {t : Nat} {g r neg : Bool} {rc : BitVec 2}

theorem roundedWhole_cast : ((roundedWhole rc neg t g r : Int) : ℚ) =
    if roundsUp rc neg (t % 2 == 1) g r then (t : ℚ) + 1 else t := by
  unfold roundedWhole
  split <;> simp

theorem InCell.whole_bounds (h : InCell y t 0 g r) : (t : ℚ) ≤ y ∧ y < (t : ℚ) + 1 := by
  simpa using h.bounds

theorem InCell.whole_floor (h : InCell y t 0 g r) : ⌊y⌋ = (t : Int) := by
  obtain ⟨hlo, hhi⟩ := h.whole_bounds
  rw [Int.floor_eq_iff]
  exact_mod_cast And.intro hlo hhi

/-- To nearest, the even one of two (R352). -/
theorem InCell.nearest (h : InCell y t 0 g r) :
    2 * |(roundedWhole 0 neg t g r : ℚ) - y| ≤ 1 ∧
      (2 * |(roundedWhole 0 neg t g r : ℚ) - y| = 1 → roundedWhole 0 neg t g r % 2 = 0) := by
  obtain ⟨hlo, hhi⟩ := h.whole_bounds
  have hup := h.roundsUp_iff 0 neg
  simp only [true_and, zpow_zero, mul_one, show ((0 : BitVec 2) = 1) = False by simp,
    show ((0 : BitVec 2) = 2) = False by simp, false_and, or_false] at hup
  rw [roundedWhole_cast]
  unfold roundedWhole
  split
  · next hround =>
    rw [hup] at hround
    have hhalf : 2 * (t : ℚ) + 1 ≤ 2 * y := hround.elim le_of_lt fun h => h.1.le
    rw [abs_of_nonneg (by linarith)]
    refine ⟨by linarith, fun heq => ?_⟩
    have hodd : t % 2 = 1 := hround.elim (fun h => by linarith) And.right
    omega
  · next hround =>
    rw [hup, not_or, not_lt] at hround
    rw [abs_sub_comm, abs_of_nonneg (by linarith)]
    refine ⟨by linarith [hround.1], fun heq => ?_⟩
    have heven : ¬ t % 2 = 1 := fun hodd => hround.2 ⟨by linarith, hodd⟩
    omega

/-- Away from zero: upward for a positive number, downward for a negative one. -/
theorem InCell.away (h : InCell y t 0 g r) (hrc : (rc = 1 ∧ neg = false) ∨ (rc = 2 ∧ neg = true)) :
    roundedWhole rc neg t g r = ⌈y⌉ := by
  obtain ⟨hlo, hhi⟩ := h.whole_bounds
  have hup : roundsUp rc neg (t % 2 == 1) g r = true ↔ y ≠ t := by
    rw [h.roundsUp_iff rc neg]
    rcases hrc with ⟨rfl, rfl⟩ | ⟨rfl, rfl⟩ <;> simp
  rw [eq_comm, Int.ceil_eq_iff, roundedWhole_cast]
  split
  · next hround => exact ⟨by linarith [lt_of_le_of_ne hlo (hup.1 hround).symm], hhi.le⟩
  · next hround =>
    rw [hup, not_not] at hround
    exact ⟨by linarith, hround.le⟩

/-- Toward zero: upward for a negative number, downward for a positive one, and always by mode 3. -/
theorem InCell.toward (h : InCell y t 0 g r) (hrc : (rc = 1 ∧ neg = true) ∨ (rc = 2 ∧ neg = false) ∨ rc = 3) :
    roundedWhole rc neg t g r = ⌊y⌋ := by
  have hup : ¬ roundsUp rc neg (t % 2 == 1) g r = true := by
    rw [h.roundsUp_iff rc neg]
    rcases hrc with ⟨rfl, rfl⟩ | ⟨rfl, rfl⟩ | rfl <;> simp
  rw [h.whole_floor]
  exact congrArg Nat.cast (if_neg hup)

/-- A whole number lies at the lower end of its cell. -/
theorem InCell.of_whole (t : Nat) : InCell (t : ℚ) t 0 false false := by
  rw [InCell, Bool.toNat_false, zero_sub, zpow_neg_one]
  exact ⟨by linarith, by linarith, iff_of_false Bool.false_ne_true (not_not.2 (by push_cast; ring))⟩

/-- The cell of a number with places beyond the point. -/
theorem InCell.of_places (m k : Nat) :
    InCell ((m : ℚ) * 2 ^ (-(k + 1 : Nat) : Int)) (m / 2 ^ (k + 1)) 0 (m / 2 ^ k % 2 == 1) (m % 2 ^ k != 0) := by
  have hunit : (2 : ℚ) ^ (-(k + 1 : Nat) : Int) * (2 ^ k : Nat) = 2 ^ (0 - 1 : Int) := by
    rw [Nat.cast_pow, Nat.cast_ofNat, ← zpow_natCast, ← zpow_add₀ two_ne_zero]
    congr 1
    omega
  have hw : (0 : ℚ) < 2 ^ (-(k + 1 : Nat) : Int) := by positivity
  have hmod := Nat.div_add_mod m (2 ^ k)
  have hlt := Nat.mod_lt m (show 2 ^ k > 0 by positivity)
  rw [pow_succ, ← Nat.div_div_eq_div_mul]
  refine InCell.of_halves ?_ ?_ ?_ <;> rw [← hunit, mul_comm (2 ^ _ : ℚ), ← mul_assoc]
  · refine mul_le_mul_of_nonneg_right ?_ hw.le
    norm_cast
    exact Nat.div_mul_le_self m (2 ^ k)
  · refine mul_lt_mul_of_pos_right ?_ hw
    norm_cast
    rw [Nat.add_mul, Nat.one_mul, Nat.mul_comm _ (2 ^ k)]
    omega
  · rw [Ne, mul_left_inj' hw.ne', bne_iff_ne, Ne, not_iff_not]
    norm_cast
    rw [Nat.mul_comm _ (2 ^ k)]
    omega

/-- Every number is rounded to a whole one in the cell its magnitude lies in. -/
theorem roundToInt_cell (rc : BitVec 2) (sg : Bool) (m : Nat) (e : Int) :
    ∃ (y : ℚ) (t : Nat) (g r up : Bool), InCell y t 0 g r ∧ (FVal.fin sg m e).rat = (if sg then -y else y) ∧
      roundToInt rc sg m e =
        ⟨if sg then -roundedWhole rc sg t g r else roundedWhole rc sg t g r, g, r, up⟩ := by
  by_cases he : 0 ≤ e
  · have hy : ((m * 2 ^ e.toNat : Nat) : ℚ) = (m : ℚ) * 2 ^ e := by
      rw [Nat.cast_mul, Nat.cast_pow, Nat.cast_ofNat, ← zpow_natCast, Int.toNat_of_nonneg he]
    have hrounded : roundedWhole rc sg (m * 2 ^ e.toNat) false false = (m * 2 ^ e.toNat : Nat) :=
      congrArg Nat.cast (if_neg (by simp [Machine.roundsUp_iff]))
    refine ⟨_, m * 2 ^ e.toNat, false, false, false, InCell.of_whole _, ?_, ?_⟩
    · rw [hy]
      cases sg <;> simp [FVal.rat]
    · rw [hrounded, roundToInt, if_pos he]
      simp [scaled]
  · obtain ⟨k, rfl⟩ : ∃ k : Nat, e = -(k + 1 : Nat) := ⟨(-e).toNat - 1, by omega⟩
    refine ⟨_, _, _, _, roundsUp rc sg (m / 2 ^ (k + 1) % 2 == 1) (m / 2 ^ k % 2 == 1) (m % 2 ^ k != 0),
      InCell.of_places m k, ?_, ?_⟩
    · cases sg <;> simp [FVal.rat]
    · rw [roundToInt, if_neg he]
      have hk : (-(-((k + 1 : Nat) : Int))).toNat = k + 1 := by omega
      simp only [hk, Nat.add_sub_cancel, scaled, roundedWhole, sub_self, Int.toNat_zero, pow_zero, Nat.mul_one]

end

/-- Rounding to a whole number by RC (R352). -/
theorem roundToInt_spec (rc : BitVec 2) (sg : Bool) (m : Nat) (e : Int) :
    let x := (FVal.fin sg m e).rat
    let r := roundToInt rc sg m e
    ((r.guard || r.rest) = true ↔ (r.value : ℚ) ≠ x) ∧
      (rc = 0 → 2 * |(r.value : ℚ) - x| ≤ 1 ∧ (2 * |(r.value : ℚ) - x| = 1 → r.value % 2 = 0)) ∧
      (rc = 1 → r.value = ⌈x⌉) ∧ (rc = 2 → r.value = ⌊x⌋) ∧ (rc = 3 → r.value = if x < 0 then ⌈x⌉ else ⌊x⌋) := by
  obtain ⟨y, t, g, r, up, hcell, hx, hr⟩ := roundToInt_cell rc sg m e
  have hexact : (g || r) = true ↔ ((roundedWhole rc sg t g r : Int) : ℚ) ≠ y := by
    have := hcell.exact_iff_rounded (rc := rc) (neg := sg)
    rw [zpow_zero, mul_one] at this
    rw [roundedWhole_cast, Ne, eq_comm (b := y), ← this, Bool.not_eq_false]
  have hnonneg : 0 ≤ y := le_trans (by positivity) hcell.whole_bounds.1
  dsimp only
  rw [hr, hx]
  cases sg
  · simp only [Bool.false_eq_true, if_false]
    refine ⟨hexact, ?_, fun h => hcell.away (.inl ⟨h, rfl⟩), fun h => hcell.toward (.inr (.inl ⟨h, rfl⟩)), fun h => ?_⟩
    · rintro rfl
      exact hcell.nearest
    · rw [if_neg (not_lt.2 hnonneg)]
      exact hcell.toward (.inr (.inr h))
  · simp only [if_true]
    refine ⟨?_, ?_, fun h => ?_, fun h => ?_, fun h => ?_⟩
    · rw [hexact, Int.cast_neg, Ne, Ne, neg_inj]
    · rintro rfl
      obtain ⟨hhalf, heven⟩ := hcell.nearest (neg := true)
      rw [Int.cast_neg, neg_sub_neg, abs_sub_comm]
      exact ⟨hhalf, fun h => by have := heven h; omega⟩
    · rw [Int.ceil_neg, hcell.toward (.inl ⟨h, rfl⟩)]
    · rw [Int.floor_neg, hcell.away (.inr ⟨h, rfl⟩)]
    · rw [hcell.toward (.inr (.inr h)), Int.ceil_neg, eq_comm, ite_eq_left_iff]
      intro hzero
      have hy : y = 0 := le_antisymm (by linarith) hnonneg
      simp [hy]

/-- A Word that neither overflows nor is inexact signals nothing where neither is delivered. -/
theorem quietSignal_word {p : PsReg} {ov ix : Bool} (fr : FrFields) (hov : (ov && (p.eIV && p.eIE)) = false)
    (hix : (ix && (p.eIIX && p.eIE)) = false) : quietSignal ⟨ov, fpSignal ix false false fr⟩ p = true := by
  rw [← Bool.and_assoc] at hov
  cases ix
  · exact congrArg not hov
  · exact Bool.and_eq_true_iff.2 ⟨congrArg not hov, congrArg not hix⟩

/-- Settles O39. -/
theorem conversionsToWord : Obligations.ConversionsToWord := by
  refine ⟨fun p hp sg m e rc => Writes.of _ (exec_toWord p hp) fun s a ⟨hval, hrc, hov, hiix⟩ => ?finite, roundToInt_spec,
    fun p hp src des s s₁ s₂ s₄ l₁ l₂ a sg q hr he ha hinf hiv hq hw hset hsp => ?infinite⟩
  case finite =>
    subst hrc
    rw [realToWordCalc_fin hval]
    exact ⟨_, rfl, quietSignal_word _ hov hiix⟩
  case infinite =>
    subst hq
    rw [exec_write_drawn (exec_toWord p hp src des s) hr he ha (realToWordCalc_inf hinf) hw]
    refine finish_onward hset (fun h => hsp (by simpa [popsStack] using h)) ?_
    exact congrArg not hiv

end Sys2Proof.Machine

/-!
Real arithmetic (R309, R312, R314): sums, products and quotients of finite numbers are delivered from the exact one.
-/
namespace Sys2Proof.Machine

open Sys2Proof

/-! ## Numbers -/

section
variable {p q : Bool} {m n : Nat} {x y : Int}

theorem abs_rat (p : Bool) (m : Nat) (x : Int) : |(FVal.fin p m x).rat| = (m : ℚ) * 2 ^ x := by
  have hunit : (0 : ℚ) ≤ (m : ℚ) * 2 ^ x := by positivity
  cases p
  · simp only [FVal.rat, Bool.false_eq_true, if_false, one_mul, abs_of_nonneg hunit]
  · simp only [FVal.rat, if_true, neg_mul, one_mul, abs_neg, abs_of_nonneg hunit]

theorem rat_eq_zero_iff : (FVal.fin p m x).rat = 0 ↔ m = 0 := by
  rw [← abs_eq_zero, abs_rat, mul_eq_zero, Nat.cast_eq_zero]
  exact or_iff_left (by positivity)

theorem rat_neg_iff : (FVal.fin p m x).rat < 0 ↔ p = true ∧ m ≠ 0 := by
  have hunit : (0 : ℚ) ≤ (m : ℚ) * 2 ^ x := by positivity
  cases p
  · have hrat : (FVal.fin false m x).rat = (m : ℚ) * 2 ^ x := by simp [FVal.rat]
    exact iff_of_false (by rw [hrat]; exact not_lt.2 hunit) (by simp)
  · have hrat : (FVal.fin true m x).rat = -((m : ℚ) * 2 ^ x) := by simp [FVal.rat]
    have hpos : (0 : ℚ) < 2 ^ x := by positivity
    rw [hrat, neg_lt_zero, mul_pos_iff_of_pos_right hpos, Nat.cast_pos, Nat.pos_iff_ne_zero]
    simp

/-! ## The flags of a real result -/

/-- The flags of a pattern that is no NaN are those of its value (R312). -/
theorem withReal_of_value {f : Fmt} (hf : f.emax ≠ 0) (ps : PsReg) {v : Nat} {n z : Bool} (hv : f.isNan v = false)
    (hn : n = true ↔ f.value v = .inf true ∨ ∃ sg m e, f.value v = .fin sg m e ∧ (FVal.fin sg m e).rat < 0)
    (hz : z = true ↔ ∃ sg m e, f.value v = .fin sg m e ∧ (FVal.fin sg m e).rat = 0) :
    ps.withReal f v = { ps with fC := n, fN := n, fZ := z, fV := false, fU := false } := by
  have hneg : f.isNeg v = n := by
    rw [Bool.eq_iff_iff, hn, Fmt.isNeg_iff hf hv]
    refine or_congr_right ⟨?_, ?_⟩
    · rintro ⟨m, e, h, hm⟩
      exact ⟨true, m, e, h, rat_neg_iff.2 ⟨rfl, hm⟩⟩
    · rintro ⟨sg, m, e, h, hm⟩
      obtain ⟨rfl, h0⟩ := rat_neg_iff.1 hm
      exact ⟨m, e, h, h0⟩
  have hzero : f.isZero v = z := by
    rw [Bool.eq_iff_iff, hz, Fmt.isZero_iff hf]
    constructor
    · rintro ⟨sg, e, h⟩
      exact ⟨sg, 0, e, h, rat_eq_zero_iff.2 rfl⟩
    · rintro ⟨sg, m, e, h, hm⟩
      obtain rfl := rat_eq_zero_iff.1 hm
      exact ⟨sg, e, h⟩
  rw [PsReg.withReal, hneg, hzero]
  rfl

/-! ## Sums -/

theorem scaled_add_rat (p q : Bool) (m n : Nat) (x y : Int) :
    ((scaled p m x (min x y) + scaled q n y (min x y) : Int) : ℚ) * 2 ^ min x y =
      (FVal.fin p m x).rat + (FVal.fin q n y).rat := by
  rw [Int.cast_add, add_mul, scaled_rat p m (min_le_left x y), scaled_rat q n (min_le_right x y)]

theorem add_of_ne_zero {f : Fmt} {w : Nat} {rc : BitVec 2} (h : (FVal.fin p m x).rat + (FVal.fin q n y).rat ≠ 0) :
    ∃ (k : Nat) (z : Int), Stands f.prec k z false |(FVal.fin p m x).rat + (FVal.fin q n y).rat| ∧
      f.add w rc (.fin p m x) (.fin q n y) =
        f.deliver w rc (decide ((FVal.fin p m x).rat + (FVal.fin q n y).rat < 0)) k z false := by
  have hunit : (0 : ℚ) < 2 ^ min x y := by positivity
  rw [← scaled_add_rat] at h ⊢
  have hsum : scaled p m x (min x y) + scaled q n y (min x y) ≠ 0 := by
    rintro h0
    rw [h0] at h
    simp at h
  refine ⟨(scaled p m x (min x y) + scaled q n y (min x y)).natAbs, min x y, ⟨Int.natAbs_ne_zero.2 hsum, ?_⟩, ?_⟩
  · rw [abs_mul, abs_of_pos hunit, Nat.cast_natAbs, Int.cast_abs]
    rfl
  · have hsign : ((scaled p m x (min x y) + scaled q n y (min x y) : Int) : ℚ) * 2 ^ min x y < 0 ↔
        scaled p m x (min x y) + scaled q n y (min x y) < 0 := by
      rw [← neg_pos, ← neg_mul, mul_pos_iff_of_pos_right hunit, neg_pos, Int.cast_lt_zero]
    rw [decide_eq_decide.2 hsign]
    exact if_neg hsum

theorem add_of_eq_zero {f : Fmt} {w : Nat} {rc : BitVec 2} (h : (FVal.fin p m x).rat + (FVal.fin q n y).rat = 0) :
    f.add w rc (.fin p m x) (.fin q n y) = .exact (f.zero (if m = 0 ∧ n = 0 ∧ p = q then p else decide (rc = 2))) := by
  have hunit : (2 : ℚ) ^ min x y ≠ 0 := by positivity
  have hsum : scaled p m x (min x y) + scaled q n y (min x y) = 0 := by
    rw [← scaled_add_rat, mul_eq_zero_iff_right hunit] at h
    exact_mod_cast h
  refine (if_pos hsum).trans ?_
  split <;> rfl

/-! ## Products and quotients -/

theorem mul_of_ne_zero {f : Fmt} {w : Nat} {rc : BitVec 2} (hm : m ≠ 0) (hn : n ≠ 0) :
    ∃ (k : Nat) (z : Int), Stands f.prec k z false |(FVal.fin p m x).rat * (FVal.fin q n y).rat| ∧
      f.mul w rc (.fin p m x) (.fin q n y) = f.deliver w rc (p != q) k z false := by
  refine ⟨m * n, x + y, ⟨Nat.mul_ne_zero hm hn, ?_⟩, if_neg (by tauto)⟩
  rw [abs_mul, abs_rat, abs_rat, zpow_add₀ two_ne_zero]
  push_cast
  exact mul_mul_mul_comm _ _ _ _

/-- A quotient of whole numbers, cut off at its last whole bit. -/
theorem stands_div {P : Nat} {e : Int} {num : Nat} (hn : n ≠ 0) (hlong : 2 ^ (P + 1) * n ≤ num) :
    Stands P (num / n) e (num % n != 0) ((num : ℚ) / n * 2 ^ e) := by
  have hunit : (0 : ℚ) < 2 ^ e := by positivity
  have hn' : (0 : ℚ) < n := by exact_mod_cast Nat.pos_of_ne_zero hn
  have hmod := Nat.div_add_mod num n
  have hlt := Nat.mod_lt num (Nat.pos_of_ne_zero hn)
  have hle : 2 ^ (P + 1) ≤ num / n := (Nat.le_div_iff_mul_le (Nat.pos_of_ne_zero hn)).2 hlong
  refine ⟨Nat.ne_of_gt (lt_of_lt_of_le (by positivity) hle), ?_⟩
  by_cases h : num % n = 0
  · rw [if_neg (by simp [h])]
    rw [← Nat.cast_div (Nat.dvd_of_mod_eq_zero h) hn'.ne']
  · rw [if_pos (by simp [h])]
    refine ⟨mul_lt_mul_of_pos_right ?_ hunit, mul_lt_mul_of_pos_right ?_ hunit, hle⟩
    · rw [lt_div_iff₀ hn']
      norm_cast
      rw [Nat.mul_comm]
      omega
    · rw [div_lt_iff₀ hn']
      norm_cast
      rw [Nat.add_mul, Nat.mul_comm _ n]
      omega

theorem div_of_ne_zero {f : Fmt} {w : Nat} {rc : BitVec 2} (hm : m ≠ 0) (hn : n ≠ 0) :
    ∃ (k : Nat) (z : Int) (st : Bool), Stands f.prec k z st |(FVal.fin p m x).rat / (FVal.fin q n y).rat| ∧
      f.div w rc (.fin p m x) (.fin q n y) = f.deliver w rc (p != q) k z st := by
  have hlong : 2 ^ (f.prec + 1) * n ≤ m * 2 ^ (f.prec + 3 + Nat.log2 n) := by
    calc 2 ^ (f.prec + 1) * n ≤ 2 ^ (f.prec + 1) * 2 ^ (Nat.log2 n + 1) := Nat.mul_le_mul_left _ Nat.lt_log2_self.le
      _ ≤ 2 ^ (f.prec + 3 + Nat.log2 n) := by
        rw [← pow_add]
        exact Nat.pow_le_pow_right (by omega) (by omega)
      _ ≤ m * 2 ^ (f.prec + 3 + Nat.log2 n) := Nat.le_mul_of_pos_left _ (Nat.pos_of_ne_zero hm)
  refine ⟨_, x - y - (f.prec + 3 + Nat.log2 n : Nat), _, ?_, (if_neg hn).trans (if_neg hm)⟩
  convert stands_div (e := x - y - (f.prec + 3 + Nat.log2 n : Nat)) hn hlong using 1
  have hn' : (n : ℚ) ≠ 0 := by exact_mod_cast hn
  rw [abs_div, abs_rat, abs_rat, zpow_sub₀ two_ne_zero, zpow_sub₀ two_ne_zero, zpow_natCast]
  push_cast
  field_simp

end

/-- Settles O32. -/
theorem realArithmetic : Obligations.RealArithmetic := by
  refine ⟨fun e he v ix g r u => Modifies.of_fpCalc (exec_realOperations e he),
    fun f hf w rc p q m n x y => ⟨add_of_ne_zero, add_of_eq_zero, fun hm hn => ⟨mul_of_ne_zero hm hn, div_of_ne_zero hm hn⟩,
      fun h => if_pos h, fun hm hn => (if_neg hn).trans (if_pos hm)⟩,
    fun f hf p x n z hx hn hz => withReal_of_value (emax_ne_zero_of_mem f hf) p hx hn hz,
    fun f w rc p q m x => ⟨if_pos rfl, rfl, rfl, rfl, fun hm => ⟨if_neg hm, if_neg hm⟩, rfl, rfl⟩⟩

end Sys2Proof.Machine

/-!
Remainders (R340) and square roots (R342) of reals.
-/
namespace Sys2Proof.Machine

open Sys2Proof

/-! ## Remainders -/

theorem remValue_fin {sd ss : Bool} {md ms : Nat} {ed es : Int} (h : ms ≠ 0) :
    remValue (.fin sd md ed) (.fin ss ms es) =
      some (.fin sd ((md * 2 ^ (ed - min ed es).toNat) % (ms * 2 ^ (es - min ed es).toNat)) (min ed es)) := if_neg h

theorem rem_of_remValue {f : Fmt} {w : Nat} {rc : BitVec 2} {d s x : FVal} (h : remValue d s = some x) :
    f.rem w rc d s = f.deliverValue w rc x := by
  unfold Fmt.rem
  rw [h]

section
variable {sg sq : Bool} {m n : Nat} {e y : Int}

theorem lt_zero_eq : FVal.lt (.fin sg m e) (.fin false 0 0) = decide ((FVal.fin sg m e).rat < 0) := by
  have hzero : (FVal.fin false 0 0).rat = 0 := rat_eq_zero_iff.2 rfl
  rw [← hzero]
  exact decide_eq_decide.2 (scaled_lt_iff sg false m 0 e 0)

theorem lt_magnitude_eq :
    FVal.lt (.fin false m e) (.fin false n y) = decide (|(FVal.fin sg m e).rat| < |(FVal.fin sq n y).rat|) := by
  have hmag : ∀ (p : Bool) (k : Nat) (x : Int), |(FVal.fin p k x).rat| = (FVal.fin false k x).rat := by
    intro p k x
    rw [abs_rat]
    simp [FVal.rat]
  rw [hmag, hmag]
  exact decide_eq_decide.2 (scaled_lt_iff false false m n e y)

/-- The flags of a finite remainder beside a finite divisor (R340). -/
theorem remFlags_fin (p : PsReg) (uf : Bool) :
    remFlags p (.fin sg m e) (.fin sq n y) uf =
      ({ p with
          fC := decide ((FVal.fin sg m e).rat < 0)
          fN := decide ((FVal.fin sg m e).rat < 0)
          fZ := decide (|(FVal.fin sg m e).rat| < |(FVal.fin sq n y).rat|)
          fV := false
          fU := false }).withFp false uf false false false := by
  rw [← lt_zero_eq, ← lt_magnitude_eq]
  rfl

theorem remFlags_inf (p : PsReg) (uf : Bool) :
    remFlags p (.fin sg m e) (.inf sq) uf =
      ({ p with
          fC := decide ((FVal.fin sg m e).rat < 0)
          fN := decide ((FVal.fin sg m e).rat < 0)
          fZ := true
          fV := false
          fU := false }).withFp false uf false false false := by
  rw [← lt_zero_eq]
  rfl

end

/-! ## Roots -/

/-- With `k` bits still to find, the root lies at most `2 ^ k` above what was found. -/
theorem isqrtFrom_spec (n : Nat) : ∀ (k r : Nat), r * r ≤ n → n < (r + 2 ^ k) * (r + 2 ^ k) →
    isqrtFrom n k r * isqrtFrom n k r ≤ n ∧ n < (isqrtFrom n k r + 1) * (isqrtFrom n k r + 1)
  | 0, r, hlo, hhi => ⟨hlo, hhi⟩
  | k + 1, r, hlo, hhi => by
    unfold isqrtFrom
    split
    · next hbit => exact isqrtFrom_spec n k _ hbit (by rwa [Nat.add_assoc, ← Nat.two_mul, ← pow_succ'])
    · next hbit => exact isqrtFrom_spec n k _ hlo (not_le.1 hbit)

theorem isqrt_spec (n : Nat) : isqrt n * isqrt n ≤ n ∧ n < (isqrt n + 1) * (isqrt n + 1) := by
  refine isqrtFrom_spec n _ 0 (Nat.zero_le _) ?_
  rw [Nat.zero_add, ← pow_add]
  exact Nat.lt_log2_self.trans_le (Nat.pow_le_pow_right (by omega) (by omega))

/-- The places added to a radicand: enough for the precision, and an even exponent left. -/
def rootPlaces (f : Fmt) (e : Int) : Nat := 2 * f.prec + 6 + (if e % 2 = 0 then 0 else 1)

/-- What is stored of a rounded root. -/
def rootOutcome (f : Fmt) (r : Rounded) : FpOut :=
  .store (f.pack false r.sig r.exp) r.inexact false false r.guard r.rest r.up

section
variable {f : Fmt} {rc : BitVec 2} {m : Nat} {e : Int}

theorem sqrt_eq (hm : m ≠ 0) :
    f.sqrt rc (.fin false m e) = rootOutcome f (roundSig f.prec rc false (isqrt (m * 2 ^ rootPlaces f e))
      ((e - rootPlaces f e) / 2) (m * 2 ^ rootPlaces f e != isqrt (m * 2 ^ rootPlaces f e) * isqrt (m * 2 ^ rootPlaces f e))) :=
  (if_neg hm).trans (if_neg Bool.false_ne_true)

/-- A square in the places of the root is a square in the places of the radicand. -/
theorem root_square (a : ℚ) : (a * 2 ^ ((e - rootPlaces f e) / 2)) ^ 2 = a * a * 2 ^ (e - rootPlaces f e) := by
  have heven : (e - rootPlaces f e) / 2 * 2 = e - rootPlaces f e := by
    unfold rootPlaces
    split <;> omega
  rw [mul_pow, pow_two a, ← zpow_natCast, ← zpow_mul, Nat.cast_ofNat, heven]

theorem radicand_rat :
    (FVal.fin false m e).rat = ((m * 2 ^ rootPlaces f e : Nat) : ℚ) * 2 ^ (e - rootPlaces f e) := by
  rw [zpow_sub₀ two_ne_zero, zpow_natCast]
  simp only [FVal.rat, Bool.false_eq_true, if_false, one_mul]
  push_cast
  field_simp

/-- A root has at least two bits more than the precision. -/
theorem root_long (hm : m ≠ 0) : 2 ^ (f.prec + 1) ≤ isqrt (m * 2 ^ rootPlaces f e) := by
  obtain ⟨-, hroot⟩ := isqrt_spec (m * 2 ^ rootPlaces f e)
  by_contra hshort
  have hle : isqrt (m * 2 ^ rootPlaces f e) + 1 ≤ 2 ^ (f.prec + 1) := by omega
  have hplaces : 2 ^ (f.prec + 1) * 2 ^ (f.prec + 1) ≤ m * 2 ^ rootPlaces f e := by
    rw [← pow_add]
    exact (Nat.pow_le_pow_right (by omega) (by unfold rootPlaces; omega)).trans
      (Nat.le_mul_of_pos_left _ (Nat.pos_of_ne_zero hm))
  exact absurd (hroot.trans_le (Nat.mul_le_mul hle hle)) (not_lt.2 hplaces)

/-- The root is the exact one rounded (R342): the whole root of the radicand, and whether it was exact. -/
theorem sqrt_spec (hm : m ≠ 0) : ∃ (q : Nat) (z : Int) (st : Bool), 2 ^ (f.prec + 1) ≤ q ∧
    ((q : ℚ) * 2 ^ z) ^ 2 ≤ (FVal.fin false m e).rat ∧ (FVal.fin false m e).rat < (((q : ℚ) + 1) * 2 ^ z) ^ 2 ∧
    (st = true ↔ ((q : ℚ) * 2 ^ z) ^ 2 ≠ (FVal.fin false m e).rat) ∧
    f.sqrt rc (.fin false m e) =
      .store (f.pack false (roundSig f.prec rc false q z st).sig (roundSig f.prec rc false q z st).exp)
        (roundSig f.prec rc false q z st).inexact false false (roundSig f.prec rc false q z st).guard
        (roundSig f.prec rc false q z st).rest (roundSig f.prec rc false q z st).up := by
  have hunit : (0 : ℚ) < 2 ^ (e - rootPlaces f e) := by positivity
  obtain ⟨hlo, hhi⟩ := isqrt_spec (m * 2 ^ rootPlaces f e)
  refine ⟨_, _, _, root_long hm, ?_, ?_, ?_, sqrt_eq hm⟩ <;> rw [root_square, radicand_rat (f := f)]
  · refine mul_le_mul_of_nonneg_right ?_ hunit.le
    exact_mod_cast hlo
  · refine mul_lt_mul_of_pos_right ?_ hunit
    exact_mod_cast hhi
  · rw [Ne, mul_left_inj' hunit.ne', bne_iff_ne, ne_comm]
    norm_cast

end

/-- Settles O36. -/
theorem realRemaindersRoots : Obligations.RealRemaindersRoots :=
  ⟨fun p hp v ix g r u x => Modifies.of _ (exec_remReal p hp) fun s a b ⟨ho, hx, hiix⟩ =>
      ⟨_, remCalc_store ho hx, quietSignal_inexact _ hiix⟩,
    fun p hp v ix g r u => Writes.of_fpCalc (exec_sqt p hp),
    fun sd ss md ms ed es => ⟨rfl, fun h => ⟨_, _, remValue_fin h, (Nat.div_add_mod' _ _).symm,
      Nat.mod_lt _ (Nat.pos_of_ne_zero (Nat.mul_ne_zero h (by positivity)))⟩⟩,
    fun f w rc d s neg m e h => rem_of_remValue h,
    fun p sg sq m n e y uf => ⟨remFlags_fin p uf, remFlags_inf p uf⟩,
    fun f hf rc m e => ⟨fun s => rfl, rfl, sqrt_spec⟩, isqrt_spec⟩

end Sys2Proof.Machine
